-- ==== Sys2Proof/Word.lean ====
section
/-! DEFINITION. The one word of this hardware: the byte (R12), and lists of bytes in wire order (R13). -/

namespace Sys2Proof

/-- A byte, unsigned, bit 7 the most significant (R12). -/
abbrev Byte := BitVec 8

/-- A list of bytes in wire order; the first is at offset 0 and goes on the wire first (R13). -/
abbrev Bytes := List Byte

end Sys2Proof
end

