-- ==== Sys2Proof/Config.lean ====
section
/-! DEFINITION. The fixed constants of R9 and R10, and the four open parameters of R11. -/

namespace Sys2Proof

/-! ## Fixed constants (R9) -/

/-- `MARKER0`, first byte of the start marker (R9, R52). -/
def marker0 : Byte := 0xFA

/-- `MARKER1`, second byte of the start marker (R9, R52). -/
def marker1 : Byte := 0xFB

/-- The start marker, in wire order (R39, R52). -/
def marker : Bytes := [0xFA, 0xFB]

/-- `CMD_POLL` (R9). -/
def cmdPoll : Byte := 0x41

/-- `CMD_ACK` (R9). -/
def cmdAck : Byte := 0x42

/-- `ACK_FRAME`, the fixed five-byte acknowledgement (R9, R59). -/
def ackFrame : Bytes := [0xFA, 0xFB, 0x42, 0x00, 0x43]

/-- `MAX_RETRIES` (R9). -/
def maxRetries : Nat := 5

/-- `SEQ_MIN` (R9). -/
def seqMin : Byte := 1

/-- `SEQ_MAX` (R9). -/
def seqMax : Byte := 255

/-- `MIN_FRAME`, in bytes (R9). -/
def minFrame : Nat := 5

/-! ## The code catalog (R67): names only; the block treats every code but 0x41 and 0x42 alike -/

/-- DISPENSE_ITEM, host to VMC (R67). -/
def codeDispenseItem : Byte := 0x03

/-- SET_PRICE, host to VMC (R67). -/
def codeSetPrice : Byte := 0x12

/-- REQUEST_STATUS_SIMPLE, host to VMC (R67). -/
def codeRequestStatusSimple : Byte := 0x53

/-- MENU_COMMAND_WRAPPER, host to VMC (R67). -/
def codeMenuCommandWrapper : Byte := 0x70

/-- DISPENSING_STATUS, VMC to host, class DATA (R67). -/
def codeDispensingStatus : Byte := 0x04

/-- MACHINE_STATUS_SIMPLE, VMC to host, class DATA (R67). -/
def codeMachineStatusSimple : Byte := 0x54

/-- Money received, VMC to host, class DATA (R67). -/
def codeMoneyReceived : Byte := 0x21

/-! ## Derived constants (R10) -/

/-- `MAX_FRAME`, in bytes (R10). -/
def maxFrame : Nat := 260

/-- `RXBUF_CAP`, in bytes (R10, R84). -/
def rxbufCap : Nat := 260

/-- `MAX_TX_PAYLOAD`, in bytes (R10, R55). -/
def maxTxPayload : Nat := 254

/-- `MAX_RX_PAYLOAD`, in bytes (R10). -/
def maxRxPayload : Nat := 254

/-! ## Open parameters (R11) -/

/-- `CHECK_POLICY` (R11, D6): what the router does with a frame whose checksum fails. -/
inductive CheckPolicy where
  | ignore
  | drop
deriving DecidableEq, Repr, Inhabited

/-- `SUBMIT_POLICY` (R11, D16): what SUBMIT does while a transaction is pending. -/
inductive SubmitPolicy where
  | overwrite
  | rejectBusy
deriving DecidableEq, Repr, Inhabited

/-- The four open parameters of R11, in a form that admits exactly their legal values: the reset value of
the sequence counter is kept as its predecessor, 0 to 254, and a bounded queue depth as its predecessor. -/
structure Params where
  /-- `SEQ_RESET` less one. -/
  seqResetPred : Fin 255
  /-- `CHECK_POLICY`. -/
  checkPolicy : CheckPolicy
  /-- `SUBMIT_POLICY`. -/
  submitPolicy : SubmitPolicy
  /-- `EVQ_DEPTH` less one; `none` is `unbounded`. -/
  evqDepthPred : Option Nat
deriving DecidableEq, Repr, Inhabited

/-- `SEQ_RESET`, an integer in [1,255] held as a byte (R11, R123). -/
def Params.seqReset (p : Params) : Byte := BitVec.ofNat 8 (p.seqResetPred.val + 1)

/-- `EVQ_DEPTH`: `none` is `unbounded`, `some N` a positive N (R11, D21). -/
def Params.evqDepth (p : Params) : Option Nat := p.evqDepthPred.map (· + 1)

/-- DESIGN CHOICE (notes/assumptions/6.md), safe: the machine's `SEQ_RESET`, open in the spec, so opaque here. -/
opaque Config.seqResetPred : Fin 255

/-- The machine's `CHECK_POLICY`, open in the spec, so opaque here (entry 6). -/
opaque Config.checkPolicy : CheckPolicy

/-- The machine's `SUBMIT_POLICY`, open in the spec, so opaque here (entry 6). -/
opaque Config.submitPolicy : SubmitPolicy

/-- The machine's `EVQ_DEPTH`, open in the spec, so opaque here (entry 6). -/
opaque Config.evqDepthPred : Option Nat

/-- The parameters the machine runs with. The operations take them as an argument, as R11 asks; `exec`
passes these, of which nothing but their legal range can be proved. -/
def Config.params : Params where
  seqResetPred := Config.seqResetPred
  checkPolicy := Config.checkPolicy
  submitPolicy := Config.submitPolicy
  evqDepthPred := Config.evqDepthPred

end Sys2Proof
end

