-- ==== Sys2Proof/Syntax.lean ====
section
/-! DEFINITION. The rows of spec/opcode_table.json, one constructor each, and the names under which a
record that is no row's encoding is rejected. -/

namespace Sys2Proof

/-- The rows of the opcode table. Seven are input events that an agent delivers (R2, R8): `rxByte`,
`submit`, `takeResult`, `status`, `drain`, `reservedOp`, `reset`. The other eight are frame layouts, router
cases and transmitted frames, which run as stages of the RX_BYTE step that completes a frame (R81, R86). -/
inductive Instr where
  /-- RX_BYTE (R78): one received byte. -/
  | rxByte (b : Byte)
  /-- FRAME_STD (R51): a standard-form frame, L ≥ 1, its fields in offset order. -/
  | frameStd (m0 m1 cmd len seqno : Byte) (payload : Bytes) (chk : Byte)
  /-- FRAME_SHORT (R51): a short-form frame; its length byte is 0x00. -/
  | frameShort (m0 m1 cmd chk : Byte)
  /-- POLL (R86 to R91): a completed frame, either form, whose command byte is 0x41. -/
  | poll (frame : Bytes)
  /-- ACK (R86, R92, R93, R96): a completed frame, either form, whose command byte is 0x42. -/
  | ack (frame : Bytes)
  /-- DATA_MATCHED (R86, R94): a completed DATA frame that carries the pending expected code. -/
  | dataMatched (frame : Bytes)
  /-- DATA_UNMATCHED (R86, R95): a completed DATA frame that matches no pending transaction. -/
  | dataUnmatched (frame : Bytes)
  /-- TX_ACK (R71): the transmitted ACK frame. -/
  | txAck
  /-- TX_CMD (R72): a transmitted command frame. -/
  | txCmd (code seq : Byte) (payload : Bytes)
  /-- SUBMIT (R65, R99), with the operands of the host port's row. -/
  | submit (code : Byte) (expValid : Bool) (exp : Byte) (plen : Byte) (payload : Bytes)
  /-- TAKE_RESULT (R100). -/
  | takeResult
  /-- STATUS (R101). -/
  | status
  /-- DRAIN (R102). -/
  | drain
  /-- RESERVED_OP (R66, R103): selector 1xx, its low two bits; the operands are ignored. -/
  | reservedOp (low : BitVec 2) (operands : Bytes)
  /-- RESET (R121): the reset line is asserted. -/
  | reset
deriving DecidableEq, Repr

/-- The input events of R2, R7 and R8: what an agent can deliver. The other rows run inside RX_BYTE. -/
def Instr.isEvent : Instr → Bool
  | .rxByte _ => true
  | .frameStd _ _ _ _ _ _ _ => false
  | .frameShort _ _ _ _ => false
  | .poll _ => false
  | .ack _ => false
  | .dataMatched _ => false
  | .dataUnmatched _ => false
  | .txAck => false
  | .txCmd _ _ _ => false
  | .submit _ _ _ _ _ => true
  | .takeResult => true
  | .status => true
  | .drain => true
  | .reservedOp _ _ => true
  | .reset => true

/-- The host operations (R65, R99 to R103). -/
def Instr.isHostOp : Instr → Bool
  | .rxByte _ => false
  | .frameStd _ _ _ _ _ _ _ => false
  | .frameShort _ _ _ _ => false
  | .poll _ => false
  | .ack _ => false
  | .dataMatched _ => false
  | .dataUnmatched _ => false
  | .txAck => false
  | .txCmd _ _ _ => false
  | .submit _ _ _ _ _ => true
  | .takeResult => true
  | .status => true
  | .drain => true
  | .reservedOp _ _ => true
  | .reset => false

/-- Why a record is no row's encoding. The record layout is the model's (notes/assumptions/2.md). -/
inductive DecodeError where
  /-- The record has no port byte. -/
  | emptyRecord
  /-- The port byte names no port. -/
  | unknownPort
  /-- A receive-port record is not exactly one byte (R43, R65). -/
  | notOneByte
  /-- A reset-line record is not exactly one byte. -/
  | badResetRecord
  /-- The reset line is not asserted: no step (R65). -/
  | resetNotAsserted
  /-- A host-port record has no selector. -/
  | noSelector
  /-- The selector does not fit in op[2:0] (R65). -/
  | selectorTooWide
  /-- A SUBMIT record lacks an operand (R65). -/
  | shortSubmit
  /-- `exp_valid` is not one bit (R65). -/
  | badExpValid
  /-- The payload is not `plen` bytes (R65). -/
  | badPlen
  /-- Operands follow an operation that has none (R65). -/
  | unexpectedOperands
  /-- The bytes are no complete frame: fewer than 5, or not L + 5 of them (R51, R61). -/
  | notAFrame
  /-- The frame's command byte is not of the class the record names (R63). -/
  | wrongClass
  /-- The bytes are no frame that the encoder builds (R71, R72). -/
  | notAnEncodedFrame
deriving DecidableEq, Repr

end Sys2Proof
end

