-- ==== Sys2Proof/Machine/State.lean ====
section
/-! DEFINITION. The state of the frame engine as plain data: every element of 10_state.md (R21 to R31), the
model's own input schedule and host-return trace, the reasons a step can stop, and the state after reset. -/

namespace Sys2Proof.Machine

/-- The live lifecycle states of a transaction (R23). -/
inductive Lifecycle where
  | awaitingPoll
  | sentAwaitingAck
  | ackReceivedAwaitingData
deriving DecidableEq, Repr

/-- The pending-transaction record (R22 to R24). -/
structure Pending where
  /-- The outbound command code. -/
  code : Byte
  /-- 0 to 254 payload bytes. -/
  payload : Bytes
  /-- The expected response code; `none` means that the ACK alone completes. -/
  expected : Option Byte
  /-- The lifecycle state. -/
  st : Lifecycle
  /-- How often the command frame has been transmitted, 0 to 5. -/
  retries : Nat
deriving DecidableEq, Repr

/-- Why a transaction failed; the block has one reason (R25, R108). -/
inductive FailReason where
  | maxRetriesExceeded
deriving DecidableEq, Repr

/-- A transaction's outcome (R25). -/
inductive TxnResult where
  | success (payload : Bytes)
  | failed (why : FailReason)
deriving DecidableEq, Repr

/-- An entry of the event FIFO (R27). -/
structure Event where
  code : Byte
  payload : Bytes
deriving DecidableEq, Repr

/-- A decoded frame: what `DEC` returns (R74). -/
structure Decoded where
  /-- All the frame's bytes. -/
  raw : Bytes
  cmd : Byte
  /-- `zext` of the length byte. -/
  len : Nat
  /-- Present exactly when the length byte is not 0 (R56). -/
  seqno : Option Byte
  payload : Bytes
  chk : Byte
deriving DecidableEq, Repr

/-- A record of the receive trace (R31). -/
structure FrameRec extends Decoded where
  /-- The verifier's verdict (R75). -/
  chkOk : Bool
  /-- Whether the router acted on the frame (R86). -/
  routed : Bool
deriving DecidableEq, Repr

/-- The status a host operation returns (R65, R109). -/
inductive OpStatus where
  | ok
  | busy
  | payloadTooLong
  | reservedOp
deriving DecidableEq, Repr

/-- The snapshot STATUS returns (R101). -/
structure Snapshot where
  busy : Bool
  st : Option Lifecycle
  retries : Nat
  code : Option Byte
  expected : Option Byte
  done : Bool
  result : Option TxnResult
  seq : Byte
  evqLen : Nat
  evqOvf : Bool
deriving DecidableEq, Repr

/-- What a host operation gives back to the host agent (R14, R99 to R103). -/
inductive HostReturn where
  /-- SUBMIT and the reserved selectors return a status. -/
  | status (c : OpStatus)
  /-- TAKE_RESULT returns what the result register held. -/
  | result (r : Option TxnResult)
  /-- STATUS returns a snapshot. -/
  | snapshot (v : Snapshot)
  /-- DRAIN returns the events, oldest first, and the overflow flag. -/
  | events (es : List Event) (ovf : Bool)
deriving DecidableEq, Repr

/-- The state. The first six fields are the block's elements (R21 to R28), `tx` and `rxlog` its traces (R30,
R31); `hostlog` and `inputs` are the model's own (notes/assumptions/5.md and 1.md). The block has no register
file, no program counter and no memory (R18 to R20, R37). -/
structure State where
  /-- The reader's accumulation buffer (R21). -/
  rxbuf : Bytes
  /-- The pending-transaction slot (R22). -/
  pend : Option Pending
  /-- The result register (R25). -/
  result : Option TxnResult
  /-- The sequence counter, 1 to 255, held as a byte (R26). -/
  seq : Byte
  /-- The event FIFO, oldest first (R27). -/
  evq : List Event
  /-- The sticky overflow flag `evq_ovf` (R28). -/
  evqOvf : Bool
  /-- The transmit trace, append-only (R30). -/
  tx : Bytes
  /-- The receive trace, append-only (R31). -/
  rxlog : List FrameRec
  /-- The model's own: the values host operations have returned, in order. -/
  hostlog : List HostReturn
  /-- The model's own: the input records the agents have still to deliver, next first (R8, R46). -/
  inputs : List Bytes
deriving DecidableEq, Repr

/-- No step of the block faults (R107, D35), so there is no reason for a fault. -/
inductive Fault where
deriving DecidableEq, Repr

/-- Why a step stops without a next state. -/
inductive Refusal where
  /-- Raised by an arm of `exec` whose instruction has no meaning yet; no arm does. Safe. -/
  | notModelled (mnemonic : String)
  /-- Raised by `step` when the next input record is no row's encoding: no port could carry it
  (notes/assumptions/4.md). Safe: no agent of R8 delivers such a record. -/
  | malformedInput (why : DecodeError)
deriving DecidableEq, Repr

/-- The reset values of R33 for given parameters. The traces are empty and no input waits (notes/assumptions/7.md
and 3.md, DESIGN CHOICE, unsafe for the traces). -/
def State.resetWith (p : Params) : State where
  rxbuf := []
  pend := none
  result := none
  seq := p.seqReset
  evq := []
  evqOvf := false
  tx := []
  rxlog := []
  hostlog := []
  inputs := []

/-- The machine right after reset (R33, R121), with the machine's open parameters. -/
def State.reset : State := State.resetWith Config.params

end Sys2Proof.Machine
end

