-- ==== Sys2Proof/Machine/Operands.lean ====
section
/-! DEFINITION. Operand forms: the fields of a frame by offset (R51 to R62), the frame layouts' bytes, and the
host port's operands (R65). -/

namespace Sys2Proof.Machine

/-- The command byte, offset 2 (R53). The default byte stands for offsets past the end, which no complete
frame has (notes/assumptions/14.md). -/
def cmdByte (f : Bytes) : Byte := f.getD 2 0

/-- The length byte, offset 3 (R54). -/
def lenByte (f : Bytes) : Byte := f.getD 3 0

/-- The total length that the length byte declares, 4 + L + 1 (R54, R61, R80). -/
def frameTotal (f : Bytes) : Nat := 4 + (lenByte f).toNat + 1

/-- The bytes are one complete frame: at least five, and as many as the length byte declares (R51, R80, R81). -/
def isFrame (f : Bytes) : Bool := decide (minFrame ≤ f.length) && decide (f.length = frameTotal f)

/-- A command byte of class DATA (R63, D8). -/
def isDataCmd (c : Byte) : Bool := decide (c ≠ cmdPoll) && decide (c ≠ cmdAck)

/-- The standard form's bytes in offset order (R51). -/
def stdFrame (m0 m1 cmd len seqno : Byte) (payload : Bytes) (chk : Byte) : Bytes :=
  m0 :: m1 :: cmd :: len :: seqno :: (payload ++ [chk])

/-- The short form's bytes in offset order; its length byte is 0x00 (R51). -/
def shortFrame (m0 m1 cmd chk : Byte) : Bytes := [m0, m1, cmd, 0x00, chk]

/-- SUBMIT's expected code: `some exp` when `exp_valid = 1`, else `none` (R99). -/
def expectedOf (expValid : Bool) (exp : Byte) : Option Byte := if expValid then some exp else none

end Sys2Proof.Machine
end

