-- ==== Sys2Proof/Machine/Codec.lean ====
section
/-! DEFINITION. The frame codec: checksum generator, encoder, decoder, verifier (40_codec.md). -/

namespace Sys2Proof.Machine

/-- `CHK`, the XOR of every byte, 0x00 for no byte (R58, R69). -/
def chkOf (l : Bytes) : Byte := l.foldl (· ^^^ ·) 0x00

/-- The length byte the transmitter writes, 1 + len(payload) (R55, R72). -/
def txLen (payload : Bytes) : Byte := BitVec.ofNat 8 (1 + payload.length)

/-- A command frame from its marker through its payload (R72). -/
def cmdBody (code s : Byte) (payload : Bytes) : Bytes :=
  0xFA :: 0xFB :: code :: txLen payload :: s :: payload

/-- `ENC`: the fixed ACK frame for code 0x42 (R71), else the standard form with its checksum (R72). Nothing is
escaped, stuffed or padded (R73). -/
def enc (code s : Byte) (payload : Bytes) : Bytes :=
  if code = cmdAck then ackFrame else cmdBody code s payload ++ [chkOf (cmdBody code s payload)]

/-- `DEC`: the fields of a completed frame; the sequence byte and the payload by the length byte alone, the
marker not examined (R56, R57, R74, C2). -/
def dec (f : Bytes) : Decoded :=
  if lenByte f = 0 then
    { raw := f, cmd := cmdByte f, len := 0, seqno := none, payload := [], chk := f.getD 4 0 }
  else
    { raw := f
      cmd := cmdByte f
      len := (lenByte f).toNat
      seqno := some (f.getD 4 0)
      payload := (f.drop 5).take ((lenByte f).toNat - 1)
      chk := f.getD ((lenByte f).toNat + 4) 0 }

/-- `VER`: the XOR of every byte but the last equals the last (R75). -/
def verify (f : Bytes) : Bool := decide (chkOf f.dropLast = f.getLastD 0)

end Sys2Proof.Machine
end

