-- ==== Sys2Proof/WellFormed.lean ====
section
/-! DEFINITION. Which terms of `Instr` stand for an encoding of their row. -/

namespace Sys2Proof

open Sys2Proof.Machine in
/-- The operand checks of each row, as 30_encoding.md and the opcode table give them. -/
def Instr.wf : Instr → Bool
  | .rxByte _ => true
  | .frameStd _ _ _ len _ payload _ => decide (payload.length + 1 = len.toNat)
  | .frameShort _ _ _ _ => true
  | .poll f => isFrame f && decide (cmdByte f = cmdPoll)
  | .ack f => isFrame f && decide (cmdByte f = cmdAck)
  | .dataMatched f => isFrame f && isDataCmd (cmdByte f)
  | .dataUnmatched f => isFrame f && isDataCmd (cmdByte f)
  | .txAck => true
  | .txCmd code seq payload =>
    decide (code ≠ cmdAck) && decide (seq ≠ 0) && decide (payload.length ≤ maxTxPayload)
  | .submit _ _ _ plen payload => decide (payload.length = plen.toNat)
  | .takeResult => true
  | .status => true
  | .drain => true
  | .reservedOp _ _ => true
  | .reset => true

end Sys2Proof
end

