-- ==== Sys2Proof/Decode.lean ====
section
/-! DEFINITION. Input records: the decoder, total on any bytes and rejecting by name, and the encoder. A record
is one port byte and then the row's own bytes as 30_encoding.md gives them; the port byte is the model's
(notes/assumptions/2.md, DESIGN CHOICE), since the spec's three ports and the wire number their bits apart. -/

namespace Sys2Proof

open Sys2Proof.Machine

/-! ## Port bytes (the model's) -/

/-- The receive port: one byte (R65). -/
def portReceive : Byte := 0x00

/-- The reset line: one bit, in a byte (R65). -/
def portReset : Byte := 0x01

/-- The host-operation port: selector and operands (R65). -/
def portHost : Byte := 0x02

/-- A frame the reader has completed (R81). -/
def portFrame : Byte := 0x03

/-- A completed frame at the router, class by its command byte (R63). -/
def portRouter : Byte := 0x04

/-- A completed DATA frame at the router's matched case (R94). -/
def portMatched : Byte := 0x05

/-- A completed DATA frame at the router's unmatched case (R95). -/
def portUnmatched : Byte := 0x06

/-- A frame handed to the transport (R30). -/
def portTransmit : Byte := 0x07

/-! ## Decoder -/

/-- The receive port carries exactly one byte, any value (R65, R78). -/
def decodeReceive : Bytes → Except DecodeError Instr
  | [b] => .ok (.rxByte b)
  | _ => .error .notOneByte

/-- The reset line: RESET is its assertion (R65, R121). -/
def decodeReset : Bytes → Except DecodeError Instr
  | [b] => if b = 0x01 then .ok .reset else .error .resetNotAsserted
  | _ => .error .badResetRecord

/-- SUBMIT's operands: `code`, `exp_valid`, `exp`, `plen`, then `plen` payload bytes (R65). -/
def decodeSubmit : Bytes → Except DecodeError Instr
  | code :: ev :: exp :: plen :: payload =>
    if payload.length = plen.toNat then
      if ev = 0x00 then .ok (.submit code false exp plen payload)
      else if ev = 0x01 then .ok (.submit code true exp plen payload)
      else .error .badExpValid
    else .error .badPlen
  | _ => .error .shortSubmit

/-- An operation without operands (R65). -/
def decodeBare (i : Instr) (args : Bytes) : Except DecodeError Instr :=
  if args = [] then .ok i else .error .unexpectedOperands

/-- The host port: the selector op[2:0] chooses the operation; 100 to 111 are reserved, their operands ignored
(R65, R66). -/
def decodeHost : Bytes → Except DecodeError Instr
  | [] => .error .noSelector
  | op :: args =>
    if op = 0x00 then decodeSubmit args
    else if op = 0x01 then decodeBare .takeResult args
    else if op = 0x02 then decodeBare .status args
    else if op = 0x03 then decodeBare .drain args
    else if op.toNat < 8 then .ok (.reservedOp (op.setWidth 2) args)
    else .error .selectorTooWide

/-- A completed frame's layout, standard or short by its length byte (R51, R56). -/
def decodeFrame (f : Bytes) : Except DecodeError Instr :=
  if isFrame f then
    match f with
    | m0 :: m1 :: cmd :: len :: x :: rest =>
      if len = 0x00 then .ok (.frameShort m0 m1 cmd x)
      else .ok (.frameStd m0 m1 cmd len x rest.dropLast (rest.getLastD 0))
    | _ => .error .notAFrame
  else .error .notAFrame

/-- The router's class, by the command byte alone (R63): 0x41 POLL, 0x42 ACK. Which DATA row a DATA frame is
depends on the pending slot (R87), so a DATA frame has ports of its own. -/
def decodeRouter (f : Bytes) : Except DecodeError Instr :=
  if isFrame f then
    if cmdByte f = cmdPoll then .ok (.poll f)
    else if cmdByte f = cmdAck then .ok (.ack f)
    else .error .wrongClass
  else .error .notAFrame

/-- A DATA frame at one of the router's two DATA cases (R63, R87). -/
def decodeData (row : Bytes → Instr) (f : Bytes) : Except DecodeError Instr :=
  if isFrame f then if isDataCmd (cmdByte f) then .ok (row f) else .error .wrongClass
  else .error .notAFrame

/-- A transmitted frame: the ACK frame (R71), or exactly the bytes the encoder builds (R72). -/
def decodeTransmit (f : Bytes) : Except DecodeError Instr :=
  if f = ackFrame then .ok .txAck
  else
    match f with
    | _ :: _ :: code :: _ :: seq :: rest =>
      if f = enc code seq rest.dropLast then
        if (Instr.txCmd code seq rest.dropLast).wf then .ok (.txCmd code seq rest.dropLast)
        else .error .notAnEncodedFrame
      else .error .notAnEncodedFrame
    | _ => .error .notAnEncodedFrame

/-- The instruction a record stands for, or the name under which it is rejected. -/
def decode : Bytes → Except DecodeError Instr
  | [] => .error .emptyRecord
  | port :: body =>
    if port = portReceive then decodeReceive body
    else if port = portReset then decodeReset body
    else if port = portHost then decodeHost body
    else if port = portFrame then decodeFrame body
    else if port = portRouter then decodeRouter body
    else if port = portMatched then decodeData .dataMatched body
    else if port = portUnmatched then decodeData .dataUnmatched body
    else if port = portTransmit then decodeTransmit body
    else .error .unknownPort

/-! ## Encoder -/

/-- A one-bit operand in a byte of a record. -/
def bitByte (b : Bool) : Byte := if b then 0x01 else 0x00

/-- The selector byte of a reserved operation: 1xx (R66). -/
def reservedSelector (low : BitVec 2) : Byte := BitVec.ofNat 8 (4 + low.toNat)

/-- The record of an instruction. -/
def encode : Instr → Bytes
  | .rxByte b => [portReceive, b]
  | .frameStd m0 m1 cmd len seqno payload chk => portFrame :: stdFrame m0 m1 cmd len seqno payload chk
  | .frameShort m0 m1 cmd chk => portFrame :: shortFrame m0 m1 cmd chk
  | .poll f => portRouter :: f
  | .ack f => portRouter :: f
  | .dataMatched f => portMatched :: f
  | .dataUnmatched f => portUnmatched :: f
  | .txAck => portTransmit :: ackFrame
  | .txCmd code seq payload => portTransmit :: enc code seq payload
  | .submit code expValid exp plen payload =>
    portHost :: 0x00 :: code :: bitByte expValid :: exp :: plen :: payload
  | .takeResult => [portHost, 0x01]
  | .status => [portHost, 0x02]
  | .drain => [portHost, 0x03]
  | .reservedOp low operands => portHost :: reservedSelector low :: operands
  | .reset => [portReset, 0x01]

/-! ## The opcode table's numbering -/

/-- The first `n` bytes of a number, the first byte least significant. -/
def bytesOfNat : Nat → Nat → Bytes
  | 0, _ => []
  | n + 1, w => BitVec.ofNat 8 w :: bytesOfNat n (w / 256)

/-- A frame row's record: the one word with a fixed pattern of 40 bits is TX_ACK's, a command byte 0x41 or 0x42
is a POLL or ACK row, and any other frame is a layout row. -/
def frameRecord (f : Bytes) : Bytes :=
  if f = ackFrame then portTransmit :: f
  else if isDataCmd (cmdByte f) then portFrame :: f
  else portRouter :: f

/-- The record of an instruction whose bits are `w`, numbered as spec/opcode_table.json numbers them. The table
gives no port bits, so the width tells the port (notes/assumptions/2.md): 1 bit the reset line, 3 bits the host
port's selector, 8 bits the receive port, 40 bits or more a frame. Bits above `nbits` are 0, so a SUBMIT has
operands of zeros and a frame is filled up with zeros to the length its length byte declares. -/
def tableRecord (nbits w : Nat) : Bytes :=
  if nbits = 1 then [portReset, BitVec.ofNat 8 w]
  else if nbits = 3 then
    portHost :: BitVec.ofNat 8 w :: (if w = 0 then [0x00, 0x00, 0x00, 0x00] else [])
  else if nbits = 8 then [portReceive, BitVec.ofNat 8 w]
  else if nbits < 40 then []
  else frameRecord (bytesOfNat (max (nbits / 8) (frameTotal (bytesOfNat 4 w))) w)

/-- What the decoder reads from a table word; `none` where it refuses. -/
def decodeTableWord (nbits w : Nat) : Option Instr :=
  match decode (tableRecord nbits w) with
  | .ok i => some i
  | .error _ => none

end Sys2Proof
end

