-- ==== Sys2Proof/Machine/Flags.lean ====
section
/-! DEFINITION. Every one-bit condition of the spec: the level outputs (R29), the marker test (R79), the match
test (R63, R94), the routing test (R86), the queue's room (R95), and the numeric codes of R109. -/

namespace Sys2Proof.Machine

/-- `done`, the completion signal (R29, R111). -/
def State.done (s : State) : Bool := s.result.isSome

/-- `ev_pending`, the event signal (R29, R112). -/
def State.evPending (s : State) : Bool := !s.evq.isEmpty

/-- `busy` (R29). -/
def State.busy (s : State) : Bool := s.pend.isSome

/-- The buffer holds at least two bytes and its last two are the marker (R79). -/
def endsWithMarker (l : Bytes) : Bool :=
  decide (2 ≤ l.length) && decide (l.drop (l.length - 2) = marker)

/-- A transaction is pending and its expected code is `cmd` (R63, R94). -/
def State.expects (s : State) (cmd : Byte) : Bool :=
  match s.pend with
  | none => false
  | some t => decide (t.expected = some cmd)

/-- The router acts on a frame with this verdict unless `CHECK_POLICY = Drop` and it failed (R76, R86). -/
def routes (p : Params) (chkOk : Bool) : Bool := chkOk || decide (p.checkPolicy = .ignore)

/-- The event FIFO has room for one more (R95, D21). -/
def hasRoom (p : Params) (n : Nat) : Bool :=
  match p.evqDepth with
  | none => true
  | some d => decide (n < d)

/-- SUBMIT is turned away with Busy (R99, D16). -/
def State.turnsAway (s : State) (p : Params) : Bool := s.busy && decide (p.submitPolicy = .rejectBusy)

/-- The number of a host status (R109). -/
def OpStatus.number : OpStatus → Nat
  | .ok => 0
  | .busy => 1
  | .payloadTooLong => 2
  | .reservedOp => 3

/-- The number of a result's kind (R109). -/
def TxnResult.number : TxnResult → Nat
  | .success _ => 0
  | .failed .maxRetriesExceeded => 1

end Sys2Proof.Machine
end

