-- ==== Sys2Proof/Machine/Ops.lean ====
section
/-! DEFINITION. The named operations on the state that the rules share: the primitives of R14, the sequence
successor (R97), the completion record (R115), the event queue (R95), and fetching the next input record. The
block takes no exception (R107); ending a transaction, `State.finish`, is the one record-and-leave operation it
has, and TAKE_RESULT (R100, R116) the return from it. -/

namespace Sys2Proof.Machine

/-- `emit_tx`: append one whole frame to the transmit trace (R14, R30). -/
def State.emitTx (s : State) (frame : Bytes) : State := { s with tx := s.tx ++ frame }

/-- The idle ACK, `emit_tx(ENC(0x42, s.seq, []))` (42_dispatch_router.md, head; R71). -/
def State.idleAck (s : State) : State := s.emitTx (enc cmdAck s.seq [])

/-- `log_rx`: append a frame record to the receive trace (R14, R31). -/
def State.logRx (s : State) (r : FrameRec) : State := { s with rxlog := s.rxlog ++ [r] }

/-- `return v` of a host operation (R14); the trace is the model's (notes/assumptions/5.md). -/
def State.giveBack (s : State) (v : HostReturn) : State := { s with hostlog := s.hostlog ++ [v] }

/-- `refuse <Reason>` of a host operation: no state change but the status given back (R14, R110). -/
def State.refuse (s : State) (c : OpStatus) : State := s.giveBack (.status c)

/-- `adv`, the sequence successor: 255 is followed by 1, never 0 (R97). -/
def adv (n : Byte) : Byte := if n = seqMax then seqMin else n + 1

/-- `s.seq <- adv(s.seq)` (R93, R95). -/
def State.advanceSeq (s : State) : State := { s with seq := adv s.seq }

/-- A transaction ends: its outcome goes to the result register and the slot empties (R115, D12). -/
def State.finish (s : State) (r : TxnResult) : State := { s with result := some r, pend := none }

/-- The slot's record is replaced (R22). -/
def State.setPend (s : State) (t : Pending) : State := { s with pend := some t }

/-- The result register is cleared (R25). -/
def State.clearResult (s : State) : State := { s with result := none }

/-- The accumulation buffer is replaced (R21). -/
def State.setRxbuf (s : State) (buf : Bytes) : State := { s with rxbuf := buf }

/-- An event is queued, or, when the queue is full, dropped with the sticky flag set (R95, D21). -/
def State.queueEvent (p : Params) (e : Event) (s : State) : State :=
  if hasRoom p s.evq.length then { s with evq := s.evq ++ [e] } else { s with evqOvf := true }

/-- The next input record of the schedule and the state with the rest to come (notes/assumptions/1.md). -/
def fetchInput (s : State) : Option (Bytes × State) :=
  match s.inputs with
  | [] => none
  | r :: rest => some (r, { s with inputs := rest })

/-- The record becomes the next input (notes/assumptions/3.md). -/
def State.placeInput (s : State) (r : Bytes) : State := { s with inputs := r :: s.inputs }

end Sys2Proof.Machine
end

