-- ==== Sys2Proof/Machine/HostPort.lean ====
section
/-! DEFINITION. The host interface (43_host_interface.md): rows SUBMIT, TAKE_RESULT, STATUS, DRAIN and
RESERVED_OP. What an operation returns goes to the model's host trace (notes/assumptions/5.md). -/

namespace Sys2Proof.Machine

/-- The transaction a SUBMIT starts (R99). -/
def newPending (code : Byte) (expected : Option Byte) (payload : Bytes) : Pending :=
  { code := code, payload := payload, expected := expected, st := .awaitingPoll, retries := 0 }

/-- SUBMIT: the length is tested before the pending slot (R99, R114, D19). -/
def submitOp (p : Params) (code : Byte) (expected : Option Byte) (plen : Byte) (payload : Bytes) (s : State) :
    State :=
  if maxTxPayload < plen.toNat then s.refuse .payloadTooLong
  else if s.turnsAway p then s.refuse .busy
  else ((s.setPend (newPending code expected payload)).clearResult).giveBack (.status .ok)

/-- TAKE_RESULT: return and clear the result register, in one step (R100). -/
def takeOp (s : State) : State := s.clearResult.giveBack (.result s.result)

/-- What STATUS shows (R101). -/
def snapshotOf (s : State) : Snapshot where
  busy := s.busy
  st := s.pend.map (·.st)
  retries := match s.pend with
    | none => 0
    | some t => t.retries
  code := s.pend.map (·.code)
  expected := match s.pend with
    | none => none
    | some t => t.expected
  done := s.done
  result := s.result
  seq := s.seq
  evqLen := s.evq.length
  evqOvf := s.evqOvf

/-- The event queue and its overflow flag are cleared (R102). -/
def State.clearEvents (s : State) : State := { s with evq := [], evqOvf := false }

/-- SUBMIT (R99). -/
def execSubmit (code : Byte) (expValid : Bool) (exp plen : Byte) (payload : Bytes) (s : State) :
    Host.Outcome State Fault Refusal :=
  .next (submitOp Config.params code (expectedOf expValid exp) plen payload s)

/-- TAKE_RESULT (R100). -/
def execTakeResult (s : State) : Host.Outcome State Fault Refusal := .next (takeOp s)

/-- STATUS: a snapshot, no side effect (R101, R44). -/
def execStatus (s : State) : Host.Outcome State Fault Refusal :=
  .next (s.giveBack (.snapshot (snapshotOf s)))

/-- DRAIN: return and clear every event and the overflow flag, in one step (R102). -/
def execDrain (s : State) : Host.Outcome State Fault Refusal :=
  .next (s.clearEvents.giveBack (.events s.evq s.evqOvf))

/-- RESERVED_OP: the operands are ignored, nothing changes, `ReservedOp` is returned (R103). -/
def execReservedOp (s : State) : Host.Outcome State Fault Refusal := .next (s.refuse .reservedOp)

end Sys2Proof.Machine
end

