-- ==== Sys2Proof/Machine/Transmit.lean ====
section
/-! DEFINITION. The transmitted frames: rows TX_ACK and TX_CMD (R59, R71, R72, R30). -/

namespace Sys2Proof.Machine

/-- TX_ACK: the fixed ACK frame is handed to the transport (R71; notes/assumptions/11.md). -/
def execTxAck (s : State) : Host.Outcome State Fault Refusal := .next s.idleAck

/-- TX_CMD: the command frame is built and handed to the transport (R72, R73; notes/assumptions/11.md). -/
def execTxCmd (code seq : Byte) (payload : Bytes) (s : State) : Host.Outcome State Fault Refusal :=
  .next (s.emitTx (enc code seq payload))

end Sys2Proof.Machine
end

