-- ==== Sys2Proof/Machine/Router.lean ====
section
/-! DEFINITION. The frame-dispatch router (42_dispatch_router.md): the cases of R87, and the rows POLL, ACK,
DATA_MATCHED and DATA_UNMATCHED. -/

namespace Sys2Proof.Machine

/-- POLL while the command is due: transmit it while retries remain (R90), else fail the transaction and answer
with an idle ACK (R91). -/
def sendOrFail (t : Pending) (s : State) : State :=
  if t.retries < maxRetries then
    (s.emitTx (enc t.code s.seq t.payload)).setPend
      { t with st := .sentAwaitingAck, retries := t.retries + 1 }
  else
    (s.finish (.failed .maxRetriesExceeded)).idleAck

/-- `ON_POLL`: R88 with no transaction, R89 while its data is awaited, R90 and R91 otherwise. -/
def onPoll (s : State) : State :=
  match s.pend with
  | none => s.idleAck
  | some t =>
    match t.st with
    | .awaitingPoll => sendOrFail t s
    | .sentAwaitingAck => sendOrFail t s
    | .ackReceivedAwaitingData => s.idleAck

/-- The ACK of a sent command: on to the data frame when one is expected (R92), else completion, the one
completion that advances the sequence counter (R93). -/
def ackSent (t : Pending) (s : State) : State :=
  match t.expected with
  | some _ => s.setPend { t with st := .ackReceivedAwaitingData }
  | none => (s.finish (.success [])).advanceSeq

/-- `ON_ACK`: R92 and R93 for a sent command, nothing in any other state (R96, D11). -/
def onAck (s : State) : State :=
  match s.pend with
  | none => s
  | some t =>
    match t.st with
    | .awaitingPoll => s
    | .sentAwaitingAck => ackSent t s
    | .ackReceivedAwaitingData => s

/-- The matched DATA case: the idle ACK first, then completion with the payload; `seq` stays (R94). -/
def onMatched (payload : Bytes) (s : State) : State := s.idleAck.finish (.success payload)

/-- The unmatched DATA case: idle ACK, the event queued or the overflow flag set, `seq` advanced (R95). -/
def onUnmatched (p : Params) (cmd : Byte) (payload : Bytes) (s : State) : State :=
  (State.queueEvent p { code := cmd, payload := payload } s.idleAck).advanceSeq

/-- `ON_DATA`: matched before unmatched (R87, R114). -/
def onData (p : Params) (cmd : Byte) (payload : Bytes) (s : State) : State :=
  if s.expects cmd then onMatched payload s else onUnmatched p cmd payload s

/-- The class of a routed frame, by its command byte alone, in the order of R63 (R86). -/
def dispatch (p : Params) (d : Decoded) (s : State) : State :=
  if d.cmd = cmdPoll then onPoll s
  else if d.cmd = cmdAck then onAck s
  else onData p d.cmd d.payload s

/-- The router's entry test: a frame that fails its checksum is not routed under `CHECK_POLICY = Drop`, and
then nothing is written (R86). -/
def whenRouted (p : Params) (f : Bytes) (action : State → State) (s : State) : State :=
  if routes p (verify f) then action s else s

/-- `ROUTE` (R86). -/
def route (p : Params) (f : Bytes) (s : State) : State := whenRouted p f (dispatch p (dec f)) s

/-- POLL: the router on a completed POLL frame (R86, R88 to R91; notes/assumptions/9.md). -/
def execPoll (frame : Bytes) (s : State) : Host.Outcome State Fault Refusal :=
  .next (whenRouted Config.params frame onPoll s)

/-- ACK: the router on a completed ACK frame (R86, R92, R93, R96; notes/assumptions/9.md). -/
def execAck (frame : Bytes) (s : State) : Host.Outcome State Fault Refusal :=
  .next (whenRouted Config.params frame onAck s)

/-- The matched case's action, where its condition holds; elsewhere it is no case of the router and changes
nothing (R15, R94; notes/assumptions/10.md). -/
def matchedCase (d : Decoded) (s : State) : State :=
  if s.expects d.cmd then onMatched d.payload s else s

/-- The unmatched case's action, where its condition holds; elsewhere nothing (R15, R95; notes/assumptions/10.md). -/
def unmatchedCase (p : Params) (d : Decoded) (s : State) : State :=
  if s.expects d.cmd then s else onUnmatched p d.cmd d.payload s

/-- DATA_MATCHED: the router on a completed DATA frame that carries the expected code (R86, R94). -/
def execDataMatched (frame : Bytes) (s : State) : Host.Outcome State Fault Refusal :=
  .next (whenRouted Config.params frame (matchedCase (dec frame)) s)

/-- DATA_UNMATCHED: the router on a completed DATA frame that matches nothing (R86, R95). -/
def execDataUnmatched (frame : Bytes) (s : State) : Host.Outcome State Fault Refusal :=
  .next (whenRouted Config.params frame (unmatchedCase Config.params (dec frame)) s)

end Sys2Proof.Machine
end

