-- ==== Sys2Proof/Machine/Reader.lean ====
section
/-! DEFINITION. The frame reader (41_frame_reader.md): rows RX_BYTE, FRAME_STD and FRAME_SHORT. -/

namespace Sys2Proof.Machine

/-- The receive-trace record of a completed frame: decoded fields, verdict, whether routed (R31, R78). -/
def frameRec (p : Params) (f : Bytes) : FrameRec :=
  { toDecoded := dec f, chkOk := verify f, routed := routes p (verify f) }

/-- Completion of frame `f`: the buffer empties, the frame is decoded, verified and routed, and its record is
logged (R81). -/
def completeFrame (p : Params) (f : Bytes) (s : State) : State :=
  (route p f (s.setRxbuf [])).logRx (frameRec p f)

/-- The tests after an append, resynchronization before completion (R78, R79, R81, R83). No start check is made
(R82). -/
def afterAppend (p : Params) (buf : Bytes) (s : State) : State :=
  if endsWithMarker buf then s.setRxbuf marker
  else if isFrame buf then completeFrame p buf s
  else s.setRxbuf buf

/-- The whole RX_BYTE step (R78). -/
def receive (p : Params) (b : Byte) (s : State) : State := afterAppend p (s.rxbuf ++ [b]) s

/-- RX_BYTE: one byte arrives (R78). -/
def execRxByte (b : Byte) (s : State) : Host.Outcome State Fault Refusal :=
  .next (receive Config.params b s)

/-- FRAME_STD: a complete standard-form frame at the reader (R51, R81; notes/assumptions/8.md). DESIGN CHOICE
(notes/assumptions/18.md): a frame with a second marker pair, which RX_BYTE loses (R126, R129), completes here too. -/
def execFrameStd (m0 m1 cmd len seqno : Byte) (payload : Bytes) (chk : Byte) (s : State) :
    Host.Outcome State Fault Refusal :=
  .next (completeFrame Config.params (stdFrame m0 m1 cmd len seqno payload chk) s)

/-- FRAME_SHORT: a complete short-form frame at the reader (R51, R56, R81; notes/assumptions/8.md). DESIGN CHOICE
(notes/assumptions/18.md): a marker pair after its first byte, which RX_BYTE resynchronizes on, is not tested for. -/
def execFrameShort (m0 m1 cmd chk : Byte) (s : State) : Host.Outcome State Fault Refusal :=
  .next (completeFrame Config.params (shortFrame m0 m1 cmd chk) s)

end Sys2Proof.Machine
end

