-- ==== Sys2Proof/Machine/ResetLine.lean ====
section
/-! DEFINITION. The reset line: row RESET (70_reset_and_hazards.md). -/

namespace Sys2Proof.Machine

/-- RESET: every state element to its reset value; the traces are kept (R30, R31, R33, R121). The model's own
two fields are kept as well (notes/assumptions/15.md). -/
def resetOp (p : Params) (s : State) : State :=
  { s with
    rxbuf := []
    pend := none
    result := none
    seq := p.seqReset
    evq := []
    evqOvf := false }

/-- RESET (R121). -/
def execReset (s : State) : Host.Outcome State Fault Refusal := .next (resetOp Config.params s)

end Sys2Proof.Machine
end

