-- ==== Sys2Proof/Machine/Dispatch.lean ====
section
/-! DEFINITION. One arm per row of the opcode table. -/

namespace Sys2Proof.Machine

def exec (i : Instr) (s : State) : Host.Outcome State Fault Refusal :=
  match i with
  | .rxByte b => Sys2Proof.Machine.execRxByte b s
  | .frameStd m0 m1 cmd len seqno payload chk => Sys2Proof.Machine.execFrameStd m0 m1 cmd len seqno payload chk s
  | .frameShort m0 m1 cmd chk => Sys2Proof.Machine.execFrameShort m0 m1 cmd chk s
  | .poll frame => Sys2Proof.Machine.execPoll frame s
  | .ack frame => Sys2Proof.Machine.execAck frame s
  | .dataMatched frame => Sys2Proof.Machine.execDataMatched frame s
  | .dataUnmatched frame => Sys2Proof.Machine.execDataUnmatched frame s
  | .txAck => Sys2Proof.Machine.execTxAck s
  | .txCmd code seq payload => Sys2Proof.Machine.execTxCmd code seq payload s
  | .submit code expValid exp plen payload => Sys2Proof.Machine.execSubmit code expValid exp plen payload s
  | .takeResult => Sys2Proof.Machine.execTakeResult s
  | .status => Sys2Proof.Machine.execStatus s
  | .drain => Sys2Proof.Machine.execDrain s
  | .reservedOp _ _ => Sys2Proof.Machine.execReservedOp s
  | .reset => Sys2Proof.Machine.execReset s

end Sys2Proof.Machine
end

