-- ==== Sys2Proof/Machine/Step.lean ====
section
/-! DEFINITION. One step: the next input record is taken, decoded and run (R7, R8, R46). -/

namespace Sys2Proof.Machine

/-- One step. With no input waiting the block idles: it has no agent of its own (R8; notes/assumptions/3.md).
A record that is no row's encoding is refused by name (notes/assumptions/4.md). -/
def step (s : State) : Host.Outcome State Fault Refusal :=
  match fetchInput s with
  | none => .next s
  | some (r, rest) =>
    match decode r with
    | .error e => .refused (.malformedInput e)
    | .ok i => exec i rest

/-- The state whose very next step runs the table word `w`: its record becomes the next input. -/
def State.withFetchWord (s : State) (nbits w : Nat) : State := s.placeInput (tableRecord nbits w)

end Sys2Proof.Machine
end

