-- ==== Sys2Proof/Safety.lean ====
section
/-! DEFINITION. What counts as a good state, a legal schedule and a run, in the terms the statements use. -/

namespace Sys2Proof.Machine

/-- What R22 to R24 and R32 (b) and (e) say of a pending record, and the reachability remark of R91: a command
that was never sent has no retries counted. -/
structure Pending.Ok (t : Pending) : Prop where
  payload_le : t.payload.length ≤ maxTxPayload
  retries_le : t.retries ≤ maxRetries
  unsent : t.st = .awaitingPoll → t.retries = 0
  awaits_code : t.st = .ackReceivedAwaitingData → t.expected ≠ none

/-- The payload bound of a result (R10, R25). -/
def TxnResult.Ok : TxnResult → Prop
  | .success payload => payload.length ≤ maxRxPayload
  | .failed _ => True

/-- The invariants of R32, with the bounds of R22, R25, R27 and R28 and the law of R116 that a result and a
pending transaction never stand together. -/
structure Inv (p : Params) (s : State) : Prop where
  /-- R22, R24, R32 (b), (e). -/
  pend_ok : ∀ t, s.pend = some t → t.Ok
  /-- R32 (c): not 0, and a byte, so in [1,255]. -/
  seq_pos : s.seq ≠ 0
  /-- R32 (d), R84: the buffer bound. -/
  rxbuf_le : s.rxbuf.length ≤ rxbufCap
  /-- R32 (d): a buffer that reaches its total is emptied in the same step. -/
  rxbuf_short : minFrame ≤ s.rxbuf.length → s.rxbuf.length < frameTotal s.rxbuf
  /-- R32 (f). -/
  evq_le : ∀ n, p.evqDepth = some n → s.evq.length ≤ n
  /-- R27: the bound of an event's payload. -/
  evq_payload : ∀ e ∈ s.evq, e.payload.length ≤ maxRxPayload
  /-- R28: with an unbounded queue the flag is never set. -/
  evq_unbounded : p.evqDepth = none → s.evqOvf = false
  /-- R25: the bound of a result's payload. -/
  result_ok : ∀ r, s.result = some r → r.Ok
  /-- R116: a result is written only when a transaction ends, and SUBMIT clears it. -/
  result_or_pend : s.result = none ∨ s.pend = none

/-- Every waiting record is an input event of R8: what the agents can deliver. -/
def State.LegalSchedule (s : State) : Prop := ∀ r ∈ s.inputs, ∃ i, decode r = .ok i ∧ i.isEvent = true

/-- Instructions run one after the other, the schedule aside; the run ends at the first stop. -/
def execAll : List Instr → State → Host.Outcome State Fault Refusal
  | [], s => .next s
  | i :: is, s =>
    match exec i s with
    | .next t => execAll is t
    | .fault f => .fault f
    | .refused r => .refused r

/-- Bytes received one after the other, each an RX_BYTE step (R85). -/
def rxAll (bytes : Bytes) (s : State) : Host.Outcome State Fault Refusal := execAll (bytes.map .rxByte) s

/-- The router acts on the frame: its checksum verifies, or `CHECK_POLICY = Ignore` (R86). -/
def Routed (f : Bytes) : Prop := verify f = true ∨ Config.checkPolicy = .ignore

/-- The opcode-table row of a completed frame in a state (R63, R87). -/
def routerRow (f : Bytes) (s : State) : Instr :=
  if cmdByte f = cmdPoll then .poll f
  else if cmdByte f = cmdAck then .ack f
  else if s.expects (cmdByte f) then .dataMatched f
  else .dataUnmatched f

/-- `o` is the completion of frame `f` from state `s`: with the buffer emptied, the router row of the frame runs
to `u`, and then the frame's record is logged (R81). -/
def CompletesBy (f : Bytes) (s : State) (o : Host.Outcome State Fault Refusal) : Prop :=
  ∃ (u : State) (r : FrameRec),
    exec (routerRow f { s with rxbuf := [] }) { s with rxbuf := [] } = .next u ∧
    r.toDecoded = dec f ∧ r.chkOk = verify f ∧ (r.routed = true ↔ Routed f) ∧
    u.rxbuf = [] ∧ u.rxlog = s.rxlog ∧ u.hostlog = s.hostlog ∧ u.inputs = s.inputs ∧
    o = .next { u with rxlog := s.rxlog ++ [r] }

/-- Row `i` runs the unmatched DATA case R95 on frame `f` in state `s`: the frame is routed (R86), the pending
transaction does not expect its code (R87), and it is a DATA frame that the received byte or the layout row
completes (R79 to R81), or the operand of DATA_UNMATCHED itself. -/
def UnmatchedAt (i : Instr) (s : State) (f : Bytes) : Prop :=
  Routed f ∧ (∀ x, s.pend = some x → x.expected ≠ some (cmdByte f)) ∧
  (i = .dataUnmatched f ∨
    isDataCmd (cmdByte f) = true ∧
      ((∃ b, i = .rxByte b ∧ f = s.rxbuf ++ [b] ∧ isFrame f = true ∧
          ¬ (s.rxbuf.getLast? = some marker0 ∧ b = marker1)) ∨
       (∃ m0 m1 cmd len seqno payload chk, i = .frameStd m0 m1 cmd len seqno payload chk ∧
          f = stdFrame m0 m1 cmd len seqno payload chk) ∨
       (∃ m0 m1 cmd chk, i = .frameShort m0 m1 cmd chk ∧ f = shortFrame m0 m1 cmd chk)))

/-- The marker pair stands somewhere in the bytes (R126). -/
def hasMarker : Bytes → Bool
  | a :: b :: l => (decide (a = marker0) && decide (b = marker1)) || hasMarker (b :: l)
  | _ => false

/-- The transmit trace is a sequence of whole frames, each complete, verified and beginning with the marker (R30,
R52, R70, R73). -/
def State.TxWhole (s : State) : Prop :=
  ∃ fs : List Bytes, s.tx = fs.flatten ∧
    ∀ f ∈ fs, isFrame f = true ∧ verify f = true ∧ f.take 2 = marker

/-- Every record of the receive trace is the decoding and the verdict of a complete frame (R31). -/
def State.RxlogTrue (s : State) : Prop :=
  ∀ r ∈ s.rxlog, isFrame r.raw = true ∧ r.toDecoded = dec r.raw ∧ r.chkOk = verify r.raw ∧
    (r.routed = true ↔ Routed r.raw)

/-- The events a host return carries (R102). -/
def HostReturn.drained : HostReturn → List Event
  | .status _ => []
  | .result _ => []
  | .snapshot _ => []
  | .events es _ => es

/-- Every event queued so far and not lost: those drained, then those waiting, oldest first (R102). -/
def State.eventHistory (s : State) : List Event := s.hostlog.flatMap HostReturn.drained ++ s.evq

end Sys2Proof.Machine
end

