-- ==== Sys2Proof/Certificates/Slice0/Obligations.lean ====
section
/-! DEFINITION. The statements for the provers. Rules R<n> are those of spec/; "entry <n>" is
notes/assumptions/<n>.md. -/

open Sys2Proof Sys2Proof.Machine

/-! ## Codec (40_codec.md) -/

/-- R69: CHK is 0x00 of no byte and the exclusive-or of every byte of a list; the order does not matter, a byte
that appears twice cancels itself, and the rule's two worked values hold. -/
def Obligations.ChecksumIsExclusiveOr : Prop :=
  chkOf [] = 0x00 ∧
  (∀ (l : Bytes) (b : Byte), chkOf (l ++ [b]) = chkOf l ^^^ b) ∧
  (∀ l m : Bytes, l.Perm m → chkOf l = chkOf m) ∧
  (∀ (l : Bytes) (b : Byte), chkOf (b :: b :: l) = chkOf l) ∧
  chkOf [0xFA, 0xFB] = 0x01 ∧
  chkOf [0xFA, 0xFB, 0x53, 0x01, 0x01] = 0x52

/-- R70: every frame the encoder builds has the XOR of its other bytes as its last byte, so all its bytes XOR to
0x00; with the rule's example. -/
def Obligations.EncodedFrameChecksumLaw : Prop :=
  (∀ (code s : Byte) (payload : Bytes),
    chkOf (enc code s payload).dropLast = (enc code s payload).getLastD 0 ∧
    chkOf (enc code s payload) = 0x00) ∧
  enc 0x53 1 [] = [0xFA, 0xFB, 0x53, 0x01, 0x01, 0x52]

/-- R77: the decoder gives back what the encoder was given, and the verifier passes. -/
def Obligations.DecodeOfEncodedFrame : Prop :=
  (∀ (c s : Byte) (payload : Bytes), c ≠ 0x42 → payload.length ≤ 254 →
    dec (enc c s payload) =
      { raw := enc c s payload
        cmd := c
        len := 1 + payload.length
        seqno := some s
        payload := payload
        chk := chkOf (0xFA :: 0xFB :: c :: BitVec.ofNat 8 (1 + payload.length) :: s :: payload) } ∧
    verify (enc c s payload) = true) ∧
  (∀ (s : Byte) (payload : Bytes),
    dec (enc 0x42 s payload) =
      { raw := enc 0x42 s payload, cmd := 0x42, len := 0, seqno := none, payload := [], chk := 0x43 } ∧
    verify (enc 0x42 s payload) = true)

/-- R43, R51, R55: what the encoder builds is one complete frame, the ACK frame of 5 bytes or a command frame of
6 to 260. -/
def Obligations.EncodedFrameSizes : Prop :=
  ∀ (c s : Byte) (payload : Bytes), payload.length ≤ 254 →
    isFrame (enc c s payload) = true ∧
    (enc c s payload).length = (if c = 0x42 then 5 else 6 + payload.length) ∧
    5 ≤ (enc c s payload).length ∧ (enc c s payload).length ≤ 260

/-- R75: a completed frame that verifies no longer does after any one byte of it is altered, the frame's extent
kept. -/
def Obligations.AlteredByteFailsVerification : Prop :=
  ∀ (f : Bytes) (k : Nat) (b : Byte), isFrame f = true → verify f = true → (h : k < f.length) → f[k] ≠ b →
    verify (f.set k b) = false

/-- R74: the decoder's fields of a standard and of a short frame, the marker bytes not examined. -/
def Obligations.DecoderFields : Prop :=
  (∀ (m0 m1 cmd len seqno chk : Byte) (payload : Bytes), payload.length + 1 = len.toNat →
    dec (m0 :: m1 :: cmd :: len :: seqno :: (payload ++ [chk])) =
      { raw := m0 :: m1 :: cmd :: len :: seqno :: (payload ++ [chk])
        cmd := cmd
        len := len.toNat
        seqno := some seqno
        payload := payload
        chk := chk }) ∧
  (∀ m0 m1 cmd chk : Byte,
    dec [m0, m1, cmd, 0x00, chk] =
      { raw := [m0, m1, cmd, 0x00, chk], cmd := cmd, len := 0, seqno := none, payload := [], chk := chk })

/-! ## Records (30_encoding.md; the record layout is the model's, entry 2) -/

/-- Decoding an encoded well-formed instruction gives it back. The port byte is the model's choice (entry 2). -/
def Obligations.DecodeAfterEncode : Prop :=
  ∀ i : Instr, i.wf = true → decode (encode i) = .ok i

/-- Every record that decodes is the encoding of a well-formed instruction: no bit of a record is dropped. The
port byte is the model's choice (entry 2). -/
def Obligations.EncodeAfterDecode : Prop :=
  ∀ (r : Bytes) (i : Instr), decode r = .ok i → i.wf = true ∧ encode i = r

/-- Records written out with the frames of R51 and R59 and the selectors and operands of R65 and R66 decode to the
rows they stand for, and so do two words numbered as spec/opcode_table.json numbers them. The record layout (the port
byte, a byte for a one-bit or three-bit field) and how a table word's width tells its port are the model's choice
(entry 2). -/
def Obligations.DecodesWrittenWords : Prop :=
  decode [portReceive, 0xFA] = .ok (.rxByte 0xFA) ∧
  decode [portHost, 0x00, 0x03, 0x01, 0x04, 0x02, 0x00, 0x0A] = .ok (.submit 0x03 true 0x04 0x02 [0x00, 0x0A]) ∧
  decode [portHost, 0x05] = .ok (.reservedOp 1 []) ∧
  decode [portFrame, 0xFA, 0xFB, 0x53, 0x01, 0x01, 0x52] = .ok (.frameStd 0xFA 0xFB 0x53 0x01 0x01 [] 0x52) ∧
  decode [portRouter, 0xFA, 0xFB, 0x41, 0x00, 0x40] = .ok (.poll [0xFA, 0xFB, 0x41, 0x00, 0x40]) ∧
  decode [portTransmit, 0xFA, 0xFB, 0x42, 0x00, 0x43] = .ok .txAck ∧
  decodeTableWord 3 0b010 = some .status ∧
  decodeTableWord 40 0x430042FBFA = some .txAck

/-! ## Steps -/

/-- R46: a step runs the decoded instruction: it takes the next record off the schedule and is `exec` of what the
record decodes to, adding nothing else. -/
def Obligations.StepRunsDecodedInstruction : Prop :=
  ∀ (s : State) (r : Bytes) (rest : List Bytes) (i : Instr),
    s.inputs = r :: rest → decode r = .ok i → i.wf = true →
    step s = exec i { s with inputs := rest }

/-- The model's choice (entries 3 and 4): with no input waiting a step changes nothing, and a record that is no
row's encoding is refused under its decoder's name. -/
def Obligations.StepWithoutInstruction : Prop :=
  (∀ s : State, s.inputs = [] → step s = .next s) ∧
  (∀ (s : State) (r : Bytes) (rest : List Bytes) (e : DecodeError),
    s.inputs = r :: rest → decode r = .error e → step s = .refused (.malformedInput e))

/-- R107: with a schedule of input events every step completes: it neither faults nor refuses. Where an event waits
the step takes exactly that one; where none waits the step idles, which is the model's choice (entry 3), as is the
schedule itself (entry 1). -/
def Obligations.LegalStepCompletes : Prop :=
  ∀ s : State, s.LegalSchedule →
    ∃ t : State, step s = .next t ∧ t.inputs = s.inputs.tail ∧ t.LegalSchedule

/-- R46, R85: k steps on a schedule that begins with the records of k well-formed instructions run those instructions
in that order, one a step, whoever delivers them, and leave the rest of the schedule waiting. -/
def Obligations.ScheduleRunsInOrder : Prop :=
  ∀ (is : List Instr) (rest : List Bytes) (s : State), (∀ i ∈ is, i.wf = true) →
    s.inputs = is.map encode ++ rest →
    Host.Core.run Sys2Proof.core is.length s = execAll is { s with inputs := rest }

/-! ## Frame reader (41_frame_reader.md) -/

/-- R79: when the last two bytes are 0xFA then 0xFB the buffer becomes exactly those two, whatever it held, and
nothing else happens, a completion included. -/
def Obligations.MarkerPairResynchronizes : Prop :=
  ∀ s : State, s.rxbuf.getLast? = some 0xFA →
    exec (.rxByte 0xFB) s = .next { s with rxbuf := [0xFA, 0xFB] }

/-- R78, R80: a byte that neither ends a marker pair nor completes a frame is appended, and nothing else happens. -/
def Obligations.UnfinishedFrameKeepsByte : Prop :=
  ∀ (s : State) (b : Byte),
    ¬ (s.rxbuf.getLast? = some 0xFA ∧ b = 0xFB) →
    (s.rxbuf.length + 1 < 5 ∨ s.rxbuf.length + 1 ≠ ((s.rxbuf ++ [b]).getD 3 0).toNat + 5) →
    exec (.rxByte b) s = .next { s with rxbuf := s.rxbuf ++ [b] }

/-- R81: the byte that brings the buffer to its declared total, and ends no marker pair, completes the frame in the
same step: the buffer empties, the frame is decoded and verified, the router row of its class runs, and its record
is logged. No start check is made. -/
def Obligations.CompletedFrameIsRoutedAndLogged : Prop :=
  ∀ (s : State) (b : Byte),
    ¬ (s.rxbuf.getLast? = some 0xFA ∧ b = 0xFB) →
    5 ≤ s.rxbuf.length + 1 →
    s.rxbuf.length + 1 = ((s.rxbuf ++ [b]).getD 3 0).toNat + 5 →
    CompletesBy (s.rxbuf ++ [b]) s (exec (.rxByte b) s)

/-- The model's reading (entry 8) of the layout rows FRAME_STD and FRAME_SHORT: such a frame completes at the
reader. That it does so with a second marker pair in it, which RX_BYTE would lose (R126, R129), is entry 18. -/
def Obligations.LayoutRowsComplete : Prop :=
  (∀ (s : State) (m0 m1 cmd len seqno chk : Byte) (payload : Bytes), payload.length + 1 = len.toNat →
    CompletesBy (m0 :: m1 :: cmd :: len :: seqno :: (payload ++ [chk])) s
      (exec (.frameStd m0 m1 cmd len seqno payload chk) s)) ∧
  (∀ (s : State) (m0 m1 cmd chk : Byte),
    CompletesBy [m0, m1, cmd, 0x00, chk] s (exec (.frameShort m0 m1 cmd chk) s))

/-- R79, R80, R81, R85: a complete frame that begins with the marker and holds no second marker pair, received byte
by byte, is completed exactly once and whole, whatever the buffer held before, unless its first byte completed that
older buffer. -/
def Obligations.CleanFrameIsReceived : Prop :=
  ∀ (s : State) (body : Bytes),
    isFrame (0xFA :: 0xFB :: body) = true →
    hasMarker (0xFB :: body) = false →
    isFrame (s.rxbuf ++ [0xFA]) = false →
    CompletesBy (0xFA :: 0xFB :: body) s (rxAll (0xFA :: 0xFB :: body) s)

/-- R85: how bytes are framed depends on the bytes alone. Two runs of RX_BYTE steps and host operations that
receive the same bytes, from states that agree on the buffer and the receive trace only, end with the same buffer
and the same receive trace, wherever host operations fall. -/
def Obligations.FramingIgnoresHostOperations : Prop :=
  ∀ (is js : List Instr) (s s' t t' : State),
    (∀ i ∈ is, i.isHostOp = true ∨ ∃ b, i = .rxByte b) →
    (∀ j ∈ js, j.isHostOp = true ∨ ∃ b, j = .rxByte b) →
    is.filter (fun i => !i.isHostOp) = js.filter (fun i => !i.isHostOp) →
    s.rxbuf = s'.rxbuf → s.rxlog = s'.rxlog →
    execAll is s = .next t → execAll js s' = .next t' →
    t.rxbuf = t'.rxbuf ∧ t.rxlog = t'.rxlog

/-! ## Router (42_dispatch_router.md). A router row's operand is the completed frame's bytes (entry 9). -/

/-- R88: a routed POLL with no pending transaction is answered with the idle ACK and writes `tx` only. -/
def Obligations.PollWithNothingPending : Prop :=
  ∀ (f : Bytes) (s : State), Routed f → s.pend = none →
    exec (.poll f) s = .next { s with tx := s.tx ++ [0xFA, 0xFB, 0x42, 0x00, 0x43] }

/-- R89: a routed POLL while the data frame is awaited is answered with the idle ACK and writes `tx` only. -/
def Obligations.PollWhileDataAwaited : Prop :=
  ∀ (f : Bytes) (s : State) (x : Pending), Routed f → s.pend = some x → x.st = .ackReceivedAwaitingData →
    exec (.poll f) s = .next { s with tx := s.tx ++ [0xFA, 0xFB, 0x42, 0x00, 0x43] }

/-- R90: a routed POLL while the command is due and retries remain transmits the command frame with the current
sequence number, counts the transmission, and sends no idle ACK. -/
def Obligations.PollTransmitsCommand : Prop :=
  ∀ (f : Bytes) (s : State) (x : Pending), Routed f → s.pend = some x →
    (x.st = .awaitingPoll ∨ x.st = .sentAwaitingAck) → x.retries < 5 →
    exec (.poll f) s = .next
      { s with
        tx := s.tx ++ enc x.code s.seq x.payload
        pend := some { x with st := .sentAwaitingAck, retries := x.retries + 1 } }

/-- R91: a routed POLL when the retry budget is spent fails the transaction, empties the slot and answers with the
idle ACK; `seq` stays. -/
def Obligations.PollFailsSpentTransaction : Prop :=
  ∀ (f : Bytes) (s : State) (x : Pending), Routed f → s.pend = some x →
    (x.st = .awaitingPoll ∨ x.st = .sentAwaitingAck) → 5 ≤ x.retries →
    exec (.poll f) s = .next
      { s with
        tx := s.tx ++ [0xFA, 0xFB, 0x42, 0x00, 0x43]
        result := some (.failed .maxRetriesExceeded)
        pend := none }

/-- R92: a routed ACK of a sent command that expects a data frame moves it on and writes nothing else. -/
def Obligations.AckAwaitsData : Prop :=
  ∀ (f : Bytes) (s : State) (x : Pending) (c : Byte), Routed f → s.pend = some x →
    x.st = .sentAwaitingAck → x.expected = some c →
    exec (.ack f) s = .next { s with pend := some { x with st := .ackReceivedAwaitingData } }

/-- R93: a routed ACK of a sent command that expects none completes it with an empty success and advances `seq`,
255 to 1; nothing is transmitted. -/
def Obligations.AckOnlyCompletion : Prop :=
  ∀ (f : Bytes) (s : State) (x : Pending), Routed f → s.pend = some x →
    x.st = .sentAwaitingAck → x.expected = none →
    exec (.ack f) s = .next
      { s with
        result := some (.success [])
        pend := none
        seq := if s.seq = 255 then 1 else s.seq + 1 }

/-- R96: an ACK in any other state changes nothing, routed or not. -/
def Obligations.AckIgnoredOtherwise : Prop :=
  ∀ (f : Bytes) (s : State), (∀ x, s.pend = some x → x.st ≠ .sentAwaitingAck) →
    exec (.ack f) s = .next s

/-- R94: a routed DATA frame that carries the expected code gets the idle ACK and completes the transaction with
its payload, in any lifecycle state; `seq` stays. -/
def Obligations.MatchedDataCompletes : Prop :=
  ∀ (f : Bytes) (s : State) (x : Pending), (Instr.dataMatched f).wf = true → Routed f →
    s.pend = some x → x.expected = some (cmdByte f) →
    exec (.dataMatched f) s = .next
      { s with
        tx := s.tx ++ [0xFA, 0xFB, 0x42, 0x00, 0x43]
        result := some (.success (dec f).payload)
        pend := none }

/-- R95: a routed DATA frame that matches nothing gets the idle ACK, is queued (or, the queue full, sets the
overflow flag), and advances `seq`; the pending slot stays. -/
def Obligations.UnmatchedDataQueued : Prop :=
  ∀ (f : Bytes) (s : State), (Instr.dataUnmatched f).wf = true → Routed f →
    (∀ x, s.pend = some x → x.expected ≠ some (cmdByte f)) →
    exec (.dataUnmatched f) s = .next
      { s with
        tx := s.tx ++ [0xFA, 0xFB, 0x42, 0x00, 0x43]
        evq := if hasRoom Config.params s.evq.length
          then s.evq ++ [{ code := cmdByte f, payload := (dec f).payload }] else s.evq
        evqOvf := if hasRoom Config.params s.evq.length then s.evqOvf else true
        seq := if s.seq = 255 then 1 else s.seq + 1 }

/-- R27, R28, R95: what room in the queue is for every EVQ_DEPTH, and what queueing does with and without it. -/
def Obligations.EventQueueDepth : Prop :=
  (∀ (p : Params) (n : Nat), p.evqDepth = none → hasRoom p n = true) ∧
  (∀ (p : Params) (d n : Nat), p.evqDepth = some d → 1 ≤ d ∧ (hasRoom p n = true ↔ n < d)) ∧
  (∀ (p : Params) (e : Event) (s : State), hasRoom p s.evq.length = true →
    State.queueEvent p e s = { s with evq := s.evq ++ [e] }) ∧
  (∀ (p : Params) (d : Nat) (e : Event) (s : State), p.evqDepth = some d → d ≤ s.evq.length →
    State.queueEvent p e s = { s with evqOvf := true })

/-- The model's reading (entry 10) of R15: a DATA row outside its case's condition changes no state. -/
def Obligations.DataRowsOutsideTheirCase : Prop :=
  (∀ (f : Bytes) (s : State), (∀ x, s.pend = some x → x.expected ≠ some (cmdByte f)) →
    exec (.dataMatched f) s = .next s) ∧
  (∀ (f : Bytes) (s : State) (x : Pending), s.pend = some x → x.expected = some (cmdByte f) →
    exec (.dataUnmatched f) s = .next s)

/-- R76, R86: a completed frame whose checksum fails is logged and dropped under `Drop`, and is dispatched like any
other under `Ignore`; a frame that verifies is dispatched under both. -/
def Obligations.CheckPolicyOfCompletedFrame : Prop :=
  (∀ (p : Params) (f : Bytes) (s : State), p.checkPolicy = .drop → verify f = false →
    completeFrame p f s =
      { s with
        rxbuf := []
        rxlog := s.rxlog ++ [{ toDecoded := dec f, chkOk := false, routed := false }] }) ∧
  (∀ (p : Params) (f : Bytes) (s : State), p.checkPolicy = .ignore ∨ verify f = true →
    completeFrame p f s =
      (dispatch p (dec f) { s with rxbuf := [] }).logRx
        { toDecoded := dec f, chkOk := verify f, routed := true })

/-- R76, R86, at the machine's own policy: each router row leaves the state alone on a frame that is not routed.
The policy is open (entry 6), so the conclusion names both its values. -/
def Obligations.UnroutedFrameWritesNothing : Prop :=
  ∀ (f : Bytes) (s : State), verify f = false →
    Config.checkPolicy = .ignore ∨
    (Config.checkPolicy = .drop ∧
      exec (.poll f) s = .next s ∧ exec (.ack f) s = .next s ∧
      exec (.dataMatched f) s = .next s ∧ exec (.dataUnmatched f) s = .next s)

/-- R98: the router's laws, for the RX_BYTE step that completes a frame f: (a) a routed POLL appends exactly one
frame to `tx`, the command frame or the idle ACK; (b) a routed DATA frame appends one idle ACK; (c) a routed ACK
appends nothing; (d) no more than that, and a frame that is not routed appends nothing; (e) `seq` changes only in
R93 and R95, by one `adv`; (f) `result` is written only in R91, R93 and R94, each of which empties `pend`. -/
def Obligations.RouterLaws : Prop :=
  ∀ (s t : State) (b : Byte),
    ¬ (s.rxbuf.getLast? = some 0xFA ∧ b = 0xFB) → isFrame (s.rxbuf ++ [b]) = true →
    exec (.rxByte b) s = .next t →
    let f := s.rxbuf ++ [b]
    (Routed f → cmdByte f = 0x41 →
      t.tx = s.tx ++ ackFrame ∨ ∃ x, s.pend = some x ∧ t.tx = s.tx ++ enc x.code s.seq x.payload) ∧
    (Routed f → cmdByte f ≠ 0x41 → cmdByte f ≠ 0x42 → t.tx = s.tx ++ ackFrame) ∧
    (Routed f → cmdByte f = 0x42 → t.tx = s.tx) ∧
    (Routed f ∨ t.tx = s.tx) ∧
    (t.seq = s.seq ∨
      Routed f ∧ t.seq = adv s.seq ∧
        ((cmdByte f = 0x42 ∧ ∃ x, s.pend = some x ∧ x.st = .sentAwaitingAck ∧ x.expected = none) ∨
         (cmdByte f ≠ 0x41 ∧ cmdByte f ≠ 0x42 ∧ ∀ x, s.pend = some x → x.expected ≠ some (cmdByte f)))) ∧
    (t.result = s.result ∨
      Routed f ∧ t.pend = none ∧ ∃ x, s.pend = some x ∧
        ((cmdByte f = 0x41 ∧ x.st ≠ .ackReceivedAwaitingData ∧ 5 ≤ x.retries) ∨
         (cmdByte f = 0x42 ∧ x.st = .sentAwaitingAck ∧ x.expected = none) ∨
         (cmdByte f ≠ 0x41 ∧ cmdByte f ≠ 0x42 ∧ x.expected = some (cmdByte f))))

/-- R97: the sequence successor: 255 is followed by 1, every other value by the next; it never gives 0, and 255
applications give every legal value back. R97 states it for 1 to 255; that the same formula holds of the byte 0, which
is followed by 1, is the model's choice (entry 16). -/
def Obligations.SequenceSuccessor : Prop :=
  adv 255 = 1 ∧ adv 254 = 255 ∧ adv 1 = 2 ∧
  (∀ n : Byte, n ≠ 255 → (adv n).toNat = n.toNat + 1) ∧
  (∀ n : Byte, adv n ≠ 0) ∧
  (∀ n : Byte, n ≠ 0 → adv^[255] n = n)

/-- R24, R90, R91: POLL after POLL with no ACK between: k of them, k from 0 to 5, transmit the command k times and
count k; the sixth fails the transaction and is answered with the idle ACK. -/
def Obligations.RetryBound : Prop :=
  ∀ (f : Bytes) (s : State) (x : Pending), Routed f → s.pend = some x → x.st = .awaitingPoll → x.retries = 0 →
    (∀ k : Nat, k ≤ 5 →
      execAll (List.replicate k (.poll f)) s = .next
        { s with
          tx := s.tx ++ (List.replicate k (enc x.code s.seq x.payload)).flatten
          pend := some { x with st := if k = 0 then .awaitingPoll else .sentAwaitingAck, retries := k } }) ∧
    execAll (List.replicate 6 (.poll f)) s = .next
      { s with
        tx := s.tx ++ (List.replicate 5 (enc x.code s.seq x.payload)).flatten ++ ackFrame
        pend := none
        result := some (.failed .maxRetriesExceeded) }

/-- R134: an unmatched DATA frame between two POLLs makes the retransmission carry the next sequence number. -/
def Obligations.RetransmissionCarriesNewSequence : Prop :=
  ∀ (f g : Bytes) (s : State) (x : Pending), Routed f → Routed g → (Instr.dataUnmatched g).wf = true →
    s.pend = some x → x.st = .awaitingPoll → x.retries = 0 → x.expected ≠ some (cmdByte g) →
    ∃ t : State, execAll [.poll f, .dataUnmatched g, .poll f] s = .next t ∧
      t.tx = s.tx ++ enc x.code s.seq x.payload ++ ackFrame ++ enc x.code (adv s.seq) x.payload ∧
      t.seq = adv s.seq ∧
      t.pend = some { x with st := .sentAwaitingAck, retries := 2 }

/-! ## Transmitted frames -/

/-- R71: the ACK frame is the fixed five bytes whatever the sequence number and payload. That row TX_ACK hands it to
the transport and does nothing else is the model's reading (entry 11). -/
def Obligations.TransmitAck : Prop :=
  (∀ (s : Byte) (payload : Bytes), enc 0x42 s payload = [0xFA, 0xFB, 0x42, 0x00, 0x43]) ∧
  (∀ s : State, exec .txAck s = .next { s with tx := s.tx ++ [0xFA, 0xFB, 0x42, 0x00, 0x43] })

/-- R72, R73: the command frame: marker, code, length byte 1 + len(payload), sequence byte, payload as it is, and the
XOR of all of these. That row TX_CMD hands it to the transport and does nothing else is the model's reading
(entry 11). -/
def Obligations.TransmitCommand : Prop :=
  ∀ (code seq : Byte) (payload : Bytes) (s : State), code ≠ 0x42 → payload.length ≤ 254 →
    exec (.txCmd code seq payload) s = .next
      { s with
        tx := s.tx ++ ([0xFA, 0xFB, code, BitVec.ofNat 8 (1 + payload.length), seq] ++ payload ++
          [([0xFA, 0xFB, code, BitVec.ofNat 8 (1 + payload.length), seq] ++ payload).foldl (· ^^^ ·) 0x00]) }

/-- R130: the block transmits only inside an RX_BYTE step that completes a routed POLL or DATA frame, and then
exactly one frame; no other event and no idle step transmits. -/
def Obligations.HalfDuplex : Prop :=
  (∀ (i : Instr) (s t : State), i.isEvent = true → exec i s = .next t →
    t.tx = s.tx ∨
    ∃ b : Byte, i = .rxByte b ∧ ¬ (s.rxbuf.getLast? = some 0xFA ∧ b = 0xFB) ∧
      isFrame (s.rxbuf ++ [b]) = true ∧ Routed (s.rxbuf ++ [b]) ∧ cmdByte (s.rxbuf ++ [b]) ≠ 0x42 ∧
      (t.tx = s.tx ++ ackFrame ∨
        cmdByte (s.rxbuf ++ [b]) = 0x41 ∧
          ∃ x, s.pend = some x ∧ t.tx = s.tx ++ enc x.code s.seq x.payload)) ∧
  (∀ s t : State, s.inputs = [] → step s = .next t → t.tx = s.tx)

/-! ## Host interface (43_host_interface.md) and reset (70_reset_and_hazards.md) -/

/-- R99: SUBMIT. A payload of more than 254 bytes is refused first, in any state; with a transaction pending, the
policy decides; otherwise the transaction starts in AwaitingPoll with no retries, `result` is cleared, and nothing
is sent. A refused SUBMIT changes no state but what it returns. -/
def Obligations.SubmitOperation : Prop :=
  (∀ (s : State) (code exp plen : Byte) (ev : Bool) (payload : Bytes),
    payload.length = plen.toNat → 254 < plen.toNat →
    exec (.submit code ev exp plen payload) s = .next
      { s with hostlog := s.hostlog ++ [.status .payloadTooLong] }) ∧
  (∀ (s : State) (code exp plen : Byte) (ev : Bool) (payload : Bytes),
    payload.length = plen.toNat → plen.toNat ≤ 254 → s.pend = none →
    exec (.submit code ev exp plen payload) s = .next
      { s with
        pend := some
          { code := code
            payload := payload
            expected := if ev = true then some exp else none
            st := .awaitingPoll
            retries := 0 }
        result := none
        hostlog := s.hostlog ++ [.status .ok] }) ∧
  (∀ (s : State) (code exp plen : Byte) (ev : Bool) (payload : Bytes) (x : Pending),
    payload.length = plen.toNat → plen.toNat ≤ 254 → s.pend = some x →
    exec (.submit code ev exp plen payload) s = .next
      (if Config.submitPolicy = .rejectBusy then { s with hostlog := s.hostlog ++ [.status .busy] }
       else
        { s with
          pend := some
            { code := code
              payload := payload
              expected := if ev = true then some exp else none
              st := .awaitingPoll
              retries := 0 }
          result := none
          hostlog := s.hostlog ++ [.status .ok] }))

/-- R100: TAKE_RESULT returns the result register and clears it, and touches nothing else; a second one with no
step between returns none. -/
def Obligations.TakeResultOperation : Prop :=
  (∀ s : State, exec .takeResult s = .next
    { s with result := none, hostlog := s.hostlog ++ [.result s.result] }) ∧
  (∀ s : State, execAll [.takeResult, .takeResult] s = .next
    { s with result := none, hostlog := s.hostlog ++ [.result s.result, .result none] })

/-- R101: STATUS returns the snapshot and writes nothing; two in a row return equal values. -/
def Obligations.StatusOperation : Prop :=
  ∀ s : State, ∃ v : Snapshot,
    exec .status s = .next { s with hostlog := s.hostlog ++ [.snapshot v] } ∧
    execAll [.status, .status] s = .next { s with hostlog := s.hostlog ++ [.snapshot v, .snapshot v] } ∧
    (v.busy = true ↔ s.pend ≠ none) ∧
    (∀ x, s.pend = some x →
      v.st = some x.st ∧ v.retries = x.retries ∧ v.code = some x.code ∧ v.expected = x.expected) ∧
    (s.pend = none → v.st = none ∧ v.retries = 0 ∧ v.code = none ∧ v.expected = none) ∧
    (v.done = true ↔ s.result ≠ none) ∧
    v.result = s.result ∧ v.seq = s.seq ∧ v.evqLen = s.evq.length ∧ v.evqOvf = s.evqOvf

/-- R102: DRAIN returns the queued events, oldest first, with the overflow flag, and clears both; a second one with
no step between returns ([], false). -/
def Obligations.DrainOperation : Prop :=
  (∀ s : State, exec .drain s = .next
    { s with evq := [], evqOvf := false, hostlog := s.hostlog ++ [.events s.evq s.evqOvf] }) ∧
  (∀ s : State, execAll [.drain, .drain] s = .next
    { s with
      evq := []
      evqOvf := false
      hostlog := s.hostlog ++ [.events s.evq s.evqOvf, .events [] false] })

/-- R103: a reserved selector, whatever its operands, changes no state and returns ReservedOp. -/
def Obligations.ReservedOperation : Prop :=
  ∀ (s : State) (low : BitVec 2) (operands : Bytes),
    exec (.reservedOp low operands) s = .next { s with hostlog := s.hostlog ++ [.status .reservedOp] }

/-- R121: RESET, in any state, puts every state element at its reset value, `seq` at SEQ_RESET in [1,255], and
keeps the traces. (What the model's own two fields do is entry 15, and is not stated here.) -/
def Obligations.ResetOperation : Prop :=
  Config.params.seqReset ≠ 0 ∧
  ∀ s : State, ∃ t : State, exec .reset s = .next t ∧
    t.rxbuf = [] ∧ t.pend = none ∧ t.result = none ∧ t.seq = Config.params.seqReset ∧
    t.evq = [] ∧ t.evqOvf = false ∧
    t.tx = s.tx ∧ t.rxlog = s.rxlog

/-- R33: the state after reset holds the reset values. (The traces empty and no input waiting are the model's,
entries 3, 5 and 7, and are not stated.) -/
def Obligations.StateAfterReset : Prop :=
  State.reset.rxbuf = [] ∧ State.reset.pend = none ∧ State.reset.result = none ∧
  State.reset.seq = Config.params.seqReset ∧ State.reset.evq = [] ∧ State.reset.evqOvf = false

/-- R122: after RESET the block is idle: a routed POLL gets the idle ACK, an ACK is ignored, and a routed DATA frame
is acknowledged, queued and advances `seq` from SEQ_RESET. -/
def Obligations.IdleAfterReset : Prop :=
  ∀ (s : State) (f : Bytes), Routed f → isFrame f = true →
    ∃ t : State, exec .reset s = .next t ∧
      exec (.poll f) t = .next { t with tx := t.tx ++ ackFrame } ∧
      exec (.ack f) t = .next t ∧
      (isDataCmd (cmdByte f) = true →
        exec (.dataUnmatched f) t = .next
          { t with
            tx := t.tx ++ ackFrame
            evq := [{ code := cmdByte f, payload := (dec f).payload }]
            seq := adv Config.params.seqReset })

/-- R36, R110: a host operation writes neither the buffer, the traces `tx` and `rxlog`, nor `seq`, and returns
exactly one value; only SUBMIT writes `pend`, only SUBMIT and TAKE_RESULT write `result`, only DRAIN writes the
events. -/
def Obligations.HostOperationOwnership : Prop :=
  ∀ (i : Instr) (s t : State), i.isHostOp = true → exec i s = .next t →
    t.rxbuf = s.rxbuf ∧ t.tx = s.tx ∧ t.rxlog = s.rxlog ∧ t.seq = s.seq ∧ t.inputs = s.inputs ∧
    (∃ v, t.hostlog = s.hostlog ++ [v]) ∧
    (t.pend = s.pend ∨ ∃ code ev exp plen payload, i = .submit code ev exp plen payload) ∧
    (t.result = s.result ∨ i = .takeResult ∨ ∃ code ev exp plen payload, i = .submit code ev exp plen payload) ∧
    ((t.evq = s.evq ∧ t.evqOvf = s.evqOvf) ∨ i = .drain)

/-- R30, R36: of the rows other than host operations, which leave host returns and inputs alone, only RX_BYTE, the layout
rows (its completion stage) and RESET write the buffer; each router row keeps what its cases do not write; the
router and transmit rows leave buffer, receive trace and host returns alone, and the transmit rows write `tx` alone.
(That the transmit rows write `tx`, by R30's `emit_tx`, and nothing else is the model's reading, entry 11; that the layout
rows are completions is entry 8. `hostlog` and `inputs` are the model's own fields, entries 5 and 1; that RESET keeps
them is entry 15.) -/
def Obligations.WireRowOwnership : Prop :=
  ∀ (i : Instr) (s t : State), exec i s = .next t →
    (i.isHostOp = false → t.hostlog = s.hostlog ∧ t.inputs = s.inputs) ∧
    (∀ f, i = .poll f ∨ i = .ack f ∨ i = .dataMatched f ∨ i = .dataUnmatched f →
      t.rxbuf = s.rxbuf ∧ t.rxlog = s.rxlog) ∧
    ((i = .txAck ∨ ∃ code seq payload, i = .txCmd code seq payload) → t = { s with tx := t.tx }) ∧
    (∀ f, i = .poll f → t.seq = s.seq ∧ t.evq = s.evq ∧ t.evqOvf = s.evqOvf) ∧
    (∀ f, i = .ack f → t.tx = s.tx ∧ t.evq = s.evq ∧ t.evqOvf = s.evqOvf) ∧
    (∀ f, i = .dataMatched f → t.seq = s.seq ∧ t.evq = s.evq ∧ t.evqOvf = s.evqOvf) ∧
    (∀ f, i = .dataUnmatched f → t.pend = s.pend ∧ t.result = s.result)

/-! ## Whole-machine rules and invariants -/

/-- R30, R31: the traces only grow, under every row, RESET included. (That the host-return trace only grows is the
model's, entry 5.) -/
def Obligations.TracesOnlyGrow : Prop :=
  ∀ (i : Instr) (s t : State), exec i s = .next t →
    s.tx <+: t.tx ∧ s.rxlog <+: t.rxlog ∧ s.hostlog <+: t.hostlog

/-- R116: a result that the host has not taken survives every received byte and frame: in a state that meets the
invariant, no row but TAKE_RESULT, SUBMIT and RESET changes a held result. -/
def Obligations.HeldResultSurvivesReception : Prop :=
  ∀ (p : Params) (i : Instr) (s t : State) (r : TxnResult), Inv p s → s.result = some r →
    exec i s = .next t →
    t.result = some r ∨ i = .takeResult ∨ i = .reset ∨
      ∃ code ev exp plen payload, i = .submit code ev exp plen payload

/-- R111, R112, R115: `done` rises only when a pending transaction ends, and stands after every such end but a RESET's;
it falls only at TAKE_RESULT, SUBMIT or RESET. `ev_pending` rises only when the unmatched DATA case R95 queues an event,
which is then the one event queued, and stands after every run of that case; it falls only at DRAIN or RESET. (A
layout row runs that case also on a frame that RX_BYTE would lose for a second marker pair, entry 18.) -/
def Obligations.LevelOutputs : Prop :=
  ∀ (i : Instr) (s t : State), exec i s = .next t →
    (s.done = false → t.done = true → s.busy = true ∧ t.busy = false) ∧
    (i ≠ .reset → s.busy = true → t.busy = false → t.done = true) ∧
    (s.done = true → t.done = false →
      i = .takeResult ∨ i = .reset ∨ ∃ code ev exp plen payload, i = .submit code ev exp plen payload) ∧
    (s.evPending = false → t.evPending = true →
      ∃ f, UnmatchedAt i s f ∧ t.evq = [{ code := cmdByte f, payload := (dec f).payload }]) ∧
    (∀ f, UnmatchedAt i s f → t.evPending = true) ∧
    (s.evPending = true → t.evPending = false → i = .drain ∨ i = .reset)

/-- R102: each event is returned exactly once and in the order of queueing. The history, the events drained so far
followed by those waiting, changes under no row, DRAIN above all, but one that runs the unmatched DATA case R95: then
that frame's own event is appended at the end if the queue has room, and nothing is if it has none. RESET loses the
waiting events and only those (R121). That what DRAIN returned is kept in a trace, and that RESET keeps that trace, is
the model's (entries 5 and 15), and so is a layout row's run of R95 on a frame that RX_BYTE would lose for a second
marker pair (entry 18). -/
def Obligations.EventsReturnedOnceInOrder : Prop :=
  ∀ (i : Instr) (s t : State), exec i s = .next t →
    ((∀ b, i ≠ .rxByte b) → (∀ m0 m1 cmd len seqno payload chk, i ≠ .frameStd m0 m1 cmd len seqno payload chk) →
      (∀ m0 m1 cmd chk, i ≠ .frameShort m0 m1 cmd chk) → (∀ f, i ≠ .dataUnmatched f) → i ≠ .reset →
      t.eventHistory = s.eventHistory) ∧
    (i ≠ .reset → (∀ f, ¬ UnmatchedAt i s f) → t.eventHistory = s.eventHistory) ∧
    (∀ f, UnmatchedAt i s f →
      t.eventHistory =
        if hasRoom Config.params s.evq.length
          then s.eventHistory ++ [{ code := cmdByte f, payload := (dec f).payload }] else s.eventHistory) ∧
    (i = .reset → t.eventHistory = s.hostlog.flatMap HostReturn.drained)

/-- R32, R84: the invariants hold of the state after reset. (Its traces are empty by the model's choice, entry 7; the
two clauses about traces say only that the empty ones qualify.) -/
def Obligations.ResetMeetsInvariants : Prop :=
  Inv Config.params State.reset ∧ State.reset.TxWhole ∧ State.reset.RxlogTrue

/-- R32, R84, R116: every step keeps the invariants: the bounds of the pending record, the range of `seq`, the
buffer bound, the queue bound, and that a result and a pending transaction never stand together. -/
def Obligations.StepKeepsInvariants : Prop :=
  ∀ s t : State, Inv Config.params s → step s = .next t → Inv Config.params t

/-- R30, R70, R73: every step keeps the transmit trace a sequence of whole frames, each complete, verified and
beginning with the marker. -/
def Obligations.StepKeepsTransmitTraceWhole : Prop :=
  ∀ s t : State, Inv Config.params s → s.TxWhole → step s = .next t → t.TxWhole

/-- R31, R75: every step keeps the receive trace true: each record is the decoding of its own complete frame, with
the verifier's verdict and whether the router acted. -/
def Obligations.StepKeepsReceiveTraceTrue : Prop :=
  ∀ s t : State, s.RxlogTrue → step s = .next t → t.RxlogTrue
end

