-- ==== Sys2Proof/Laws/Codec.lean ====
section
/-! SUPPORT. The small lemmas of the frame fields and the codec. -/

namespace Sys2Proof.Machine

/-! ### Checksum -/

theorem foldl_xor_start (l : Bytes) (a : Byte) :
    l.foldl (· ^^^ ·) a = a ^^^ l.foldl (· ^^^ ·) 0x00 := by
  induction l generalizing a with
  | nil => simp
  | cons b l ih =>
    rw [List.foldl_cons, List.foldl_cons, ih (a ^^^ b), ih (0x00 ^^^ b)]
    simp [BitVec.xor_assoc]

@[simp] theorem chkOf_nil : chkOf [] = 0x00 := rfl

theorem chkOf_cons (b : Byte) (l : Bytes) : chkOf (b :: l) = b ^^^ chkOf l := by
  simp only [chkOf, List.foldl_cons]
  rw [foldl_xor_start]
  simp

theorem chkOf_append (l m : Bytes) : chkOf (l ++ m) = chkOf l ^^^ chkOf m := by
  induction l with
  | nil => simp
  | cons b l ih => rw [List.cons_append, chkOf_cons, chkOf_cons, ih, BitVec.xor_assoc]

@[simp] theorem chkOf_singleton (b : Byte) : chkOf [b] = b := by rw [chkOf_cons]; simp

/-! ### Frame fields -/

theorem isFrame_iff (f : Bytes) : isFrame f = true ↔ 5 ≤ f.length ∧ f.length = frameTotal f := by
  rw [isFrame, Bool.and_eq_true, decide_eq_true_iff, decide_eq_true_iff]
  rfl

theorem isDataCmd_iff (c : Byte) : isDataCmd c = true ↔ c ≠ cmdPoll ∧ c ≠ cmdAck := by
  simp [isDataCmd]

theorem frameTotal_le (f : Bytes) : frameTotal f ≤ maxFrame := by
  have := (lenByte f).isLt
  simp only [frameTotal, maxFrame]
  omega

/-- The length byte stands at offset 3, so a longer list declares the same total. -/
theorem frameTotal_append (f g : Bytes) (h : 4 ≤ f.length) : frameTotal (f ++ g) = frameTotal f := by
  simp [frameTotal, lenByte, List.getD_eq_getElem?_getD, List.getElem?_append_left (show 3 < f.length by omega)]

@[simp] theorem cmdByte_cons3 (a b c : Byte) (l : Bytes) : cmdByte (a :: b :: c :: l) = c := rfl

@[simp] theorem lenByte_cons4 (a b c d : Byte) (l : Bytes) : lenByte (a :: b :: c :: d :: l) = d := rfl

@[simp] theorem stdFrame_length (m0 m1 cmd len seqno : Byte) (payload : Bytes) (chk : Byte) :
    (stdFrame m0 m1 cmd len seqno payload chk).length = payload.length + 6 := by
  simp [stdFrame]

theorem isFrame_stdFrame (m0 m1 cmd len seqno : Byte) (payload : Bytes) (chk : Byte)
    (h : payload.length + 1 = len.toNat) : isFrame (stdFrame m0 m1 cmd len seqno payload chk) = true := by
  rw [isFrame_iff, stdFrame_length, frameTotal, stdFrame, lenByte_cons4]
  omega

theorem isFrame_shortFrame (m0 m1 cmd chk : Byte) : isFrame (shortFrame m0 m1 cmd chk) = true := by
  rw [isFrame_iff]
  exact ⟨by simp [shortFrame], by simp [shortFrame, frameTotal]⟩

/-! ### Encoder -/

@[simp] theorem enc_ack (s : Byte) (payload : Bytes) : enc cmdAck s payload = ackFrame := if_pos rfl

theorem enc_of_ne (code s : Byte) (payload : Bytes) (h : code ≠ cmdAck) :
    enc code s payload = cmdBody code s payload ++ [chkOf (cmdBody code s payload)] := if_neg h

theorem txLen_toNat (payload : Bytes) (h : payload.length ≤ maxTxPayload) :
    (txLen payload).toNat = 1 + payload.length := by
  have h' : payload.length ≤ 254 := h
  rw [txLen, BitVec.toNat_ofNat, Nat.mod_eq_of_lt (by omega)]

/-- A command frame is a standard form. -/
theorem enc_eq_stdFrame (code s : Byte) (payload : Bytes) (h : code ≠ cmdAck) :
    enc code s payload =
      stdFrame 0xFA 0xFB code (txLen payload) s payload (chkOf (cmdBody code s payload)) := by
  rw [enc_of_ne _ _ _ h]; rfl

/-! ### Decoder -/

@[simp] theorem dec_raw (f : Bytes) : (dec f).raw = f := by
  unfold dec
  split <;> rfl

@[simp] theorem dec_cmd (f : Bytes) : (dec f).cmd = cmdByte f := by
  unfold dec
  split <;> rfl

theorem dec_payload_length (f : Bytes) : (dec f).payload.length ≤ maxRxPayload := by
  have := (lenByte f).isLt
  unfold dec
  split
  · exact Nat.zero_le _
  · simp only [List.length_take, maxRxPayload]
    omega

theorem verify_iff (f : Bytes) : verify f = true ↔ chkOf f.dropLast = f.getLastD 0 := by
  simp [verify]

end Sys2Proof.Machine
end

