-- ==== Sys2Proof/Laws/Decode.lean ====
section
/-! SUPPORT. Which decoder each port byte leads to, and the small lemmas of the record fields. -/

namespace Sys2Proof

open Sys2Proof.Machine

@[simp] theorem decode_nil : decode [] = .error .emptyRecord := rfl

@[simp] theorem decode_receive (body : Bytes) : decode (portReceive :: body) = decodeReceive body := rfl

@[simp] theorem decode_reset (body : Bytes) : decode (portReset :: body) = decodeReset body := rfl

@[simp] theorem decode_host (body : Bytes) : decode (portHost :: body) = decodeHost body := rfl

@[simp] theorem decode_frame (body : Bytes) : decode (portFrame :: body) = decodeFrame body := rfl

@[simp] theorem decode_router (body : Bytes) : decode (portRouter :: body) = decodeRouter body := rfl

@[simp] theorem decode_matched (body : Bytes) :
    decode (portMatched :: body) = decodeData .dataMatched body := rfl

@[simp] theorem decode_unmatched (body : Bytes) :
    decode (portUnmatched :: body) = decodeData .dataUnmatched body := rfl

@[simp] theorem decode_transmit (body : Bytes) : decode (portTransmit :: body) = decodeTransmit body := rfl

/-- A record's first byte is one of the eight port bytes, or the record is rejected. -/
theorem port_of_decode (port : Byte) (body : Bytes) (i : Instr) (h : decode (port :: body) = .ok i) :
    port = portReceive ∨ port = portReset ∨ port = portHost ∨ port = portFrame ∨ port = portRouter ∨
    port = portMatched ∨ port = portUnmatched ∨ port = portTransmit := by
  by_contra hn
  simp only [not_or] at hn
  obtain ⟨h0, h1, h2, h3, h4, h5, h6, h7⟩ := hn
  simp [decode, h0, h1, h2, h3, h4, h5, h6, h7] at h

theorem decodeBare_ok (i j : Instr) (args : Bytes) : decodeBare i args = .ok j ↔ args = [] ∧ i = j := by
  by_cases h : args = [] <;> simp [decodeBare, h]

@[simp] theorem reservedSelector_toNat (low : BitVec 2) : (reservedSelector low).toNat = 4 + low.toNat := by
  have := low.isLt
  rw [reservedSelector, BitVec.toNat_ofNat, Nat.mod_eq_of_lt (by omega)]

@[simp] theorem bytesOfNat_length (n w : Nat) : (bytesOfNat n w).length = n := by
  induction n generalizing w with
  | zero => rfl
  | succ n ih => simp [bytesOfNat, ih]

end Sys2Proof
end

