-- ==== Sys2Proof/Laws/State.lean ====
section
/-! SUPPORT. One lemma per field per state update, so that no later proof unfolds a record update. -/

namespace Sys2Proof.Machine

variable (s : State)

/-! ### emitTx -/

@[simp] theorem State.emitTx_rxbuf (f : Bytes) : (s.emitTx f).rxbuf = s.rxbuf := rfl
@[simp] theorem State.emitTx_pend (f : Bytes) : (s.emitTx f).pend = s.pend := rfl
@[simp] theorem State.emitTx_result (f : Bytes) : (s.emitTx f).result = s.result := rfl
@[simp] theorem State.emitTx_seq (f : Bytes) : (s.emitTx f).seq = s.seq := rfl
@[simp] theorem State.emitTx_evq (f : Bytes) : (s.emitTx f).evq = s.evq := rfl
@[simp] theorem State.emitTx_evqOvf (f : Bytes) : (s.emitTx f).evqOvf = s.evqOvf := rfl
@[simp] theorem State.emitTx_tx (f : Bytes) : (s.emitTx f).tx = s.tx ++ f := rfl
@[simp] theorem State.emitTx_rxlog (f : Bytes) : (s.emitTx f).rxlog = s.rxlog := rfl
@[simp] theorem State.emitTx_hostlog (f : Bytes) : (s.emitTx f).hostlog = s.hostlog := rfl
@[simp] theorem State.emitTx_inputs (f : Bytes) : (s.emitTx f).inputs = s.inputs := rfl

/-! ### idleAck -/

@[simp] theorem State.idleAck_rxbuf : s.idleAck.rxbuf = s.rxbuf := rfl
@[simp] theorem State.idleAck_pend : s.idleAck.pend = s.pend := rfl
@[simp] theorem State.idleAck_result : s.idleAck.result = s.result := rfl
@[simp] theorem State.idleAck_seq : s.idleAck.seq = s.seq := rfl
@[simp] theorem State.idleAck_evq : s.idleAck.evq = s.evq := rfl
@[simp] theorem State.idleAck_evqOvf : s.idleAck.evqOvf = s.evqOvf := rfl
@[simp] theorem State.idleAck_tx : s.idleAck.tx = s.tx ++ ackFrame := rfl
@[simp] theorem State.idleAck_rxlog : s.idleAck.rxlog = s.rxlog := rfl
@[simp] theorem State.idleAck_hostlog : s.idleAck.hostlog = s.hostlog := rfl
@[simp] theorem State.idleAck_inputs : s.idleAck.inputs = s.inputs := rfl

/-! ### logRx -/

@[simp] theorem State.logRx_rxbuf (r : FrameRec) : (s.logRx r).rxbuf = s.rxbuf := rfl
@[simp] theorem State.logRx_pend (r : FrameRec) : (s.logRx r).pend = s.pend := rfl
@[simp] theorem State.logRx_result (r : FrameRec) : (s.logRx r).result = s.result := rfl
@[simp] theorem State.logRx_seq (r : FrameRec) : (s.logRx r).seq = s.seq := rfl
@[simp] theorem State.logRx_evq (r : FrameRec) : (s.logRx r).evq = s.evq := rfl
@[simp] theorem State.logRx_evqOvf (r : FrameRec) : (s.logRx r).evqOvf = s.evqOvf := rfl
@[simp] theorem State.logRx_tx (r : FrameRec) : (s.logRx r).tx = s.tx := rfl
@[simp] theorem State.logRx_rxlog (r : FrameRec) : (s.logRx r).rxlog = s.rxlog ++ [r] := rfl
@[simp] theorem State.logRx_hostlog (r : FrameRec) : (s.logRx r).hostlog = s.hostlog := rfl
@[simp] theorem State.logRx_inputs (r : FrameRec) : (s.logRx r).inputs = s.inputs := rfl

/-! ### giveBack -/

@[simp] theorem State.giveBack_rxbuf (v : HostReturn) : (s.giveBack v).rxbuf = s.rxbuf := rfl
@[simp] theorem State.giveBack_pend (v : HostReturn) : (s.giveBack v).pend = s.pend := rfl
@[simp] theorem State.giveBack_result (v : HostReturn) : (s.giveBack v).result = s.result := rfl
@[simp] theorem State.giveBack_seq (v : HostReturn) : (s.giveBack v).seq = s.seq := rfl
@[simp] theorem State.giveBack_evq (v : HostReturn) : (s.giveBack v).evq = s.evq := rfl
@[simp] theorem State.giveBack_evqOvf (v : HostReturn) : (s.giveBack v).evqOvf = s.evqOvf := rfl
@[simp] theorem State.giveBack_tx (v : HostReturn) : (s.giveBack v).tx = s.tx := rfl
@[simp] theorem State.giveBack_rxlog (v : HostReturn) : (s.giveBack v).rxlog = s.rxlog := rfl
@[simp] theorem State.giveBack_hostlog (v : HostReturn) : (s.giveBack v).hostlog = s.hostlog ++ [v] := rfl
@[simp] theorem State.giveBack_inputs (v : HostReturn) : (s.giveBack v).inputs = s.inputs := rfl

/-! ### refuse -/

@[simp] theorem State.refuse_rxbuf (c : OpStatus) : (s.refuse c).rxbuf = s.rxbuf := rfl
@[simp] theorem State.refuse_pend (c : OpStatus) : (s.refuse c).pend = s.pend := rfl
@[simp] theorem State.refuse_result (c : OpStatus) : (s.refuse c).result = s.result := rfl
@[simp] theorem State.refuse_seq (c : OpStatus) : (s.refuse c).seq = s.seq := rfl
@[simp] theorem State.refuse_evq (c : OpStatus) : (s.refuse c).evq = s.evq := rfl
@[simp] theorem State.refuse_evqOvf (c : OpStatus) : (s.refuse c).evqOvf = s.evqOvf := rfl
@[simp] theorem State.refuse_tx (c : OpStatus) : (s.refuse c).tx = s.tx := rfl
@[simp] theorem State.refuse_rxlog (c : OpStatus) : (s.refuse c).rxlog = s.rxlog := rfl
@[simp] theorem State.refuse_hostlog (c : OpStatus) : (s.refuse c).hostlog = s.hostlog ++ [.status c] := rfl
@[simp] theorem State.refuse_inputs (c : OpStatus) : (s.refuse c).inputs = s.inputs := rfl

/-! ### advanceSeq -/

@[simp] theorem State.advanceSeq_rxbuf : s.advanceSeq.rxbuf = s.rxbuf := rfl
@[simp] theorem State.advanceSeq_pend : s.advanceSeq.pend = s.pend := rfl
@[simp] theorem State.advanceSeq_result : s.advanceSeq.result = s.result := rfl
@[simp] theorem State.advanceSeq_seq : s.advanceSeq.seq = adv s.seq := rfl
@[simp] theorem State.advanceSeq_evq : s.advanceSeq.evq = s.evq := rfl
@[simp] theorem State.advanceSeq_evqOvf : s.advanceSeq.evqOvf = s.evqOvf := rfl
@[simp] theorem State.advanceSeq_tx : s.advanceSeq.tx = s.tx := rfl
@[simp] theorem State.advanceSeq_rxlog : s.advanceSeq.rxlog = s.rxlog := rfl
@[simp] theorem State.advanceSeq_hostlog : s.advanceSeq.hostlog = s.hostlog := rfl
@[simp] theorem State.advanceSeq_inputs : s.advanceSeq.inputs = s.inputs := rfl

/-! ### finish -/

@[simp] theorem State.finish_rxbuf (r : TxnResult) : (s.finish r).rxbuf = s.rxbuf := rfl
@[simp] theorem State.finish_pend (r : TxnResult) : (s.finish r).pend = none := rfl
@[simp] theorem State.finish_result (r : TxnResult) : (s.finish r).result = some r := rfl
@[simp] theorem State.finish_seq (r : TxnResult) : (s.finish r).seq = s.seq := rfl
@[simp] theorem State.finish_evq (r : TxnResult) : (s.finish r).evq = s.evq := rfl
@[simp] theorem State.finish_evqOvf (r : TxnResult) : (s.finish r).evqOvf = s.evqOvf := rfl
@[simp] theorem State.finish_tx (r : TxnResult) : (s.finish r).tx = s.tx := rfl
@[simp] theorem State.finish_rxlog (r : TxnResult) : (s.finish r).rxlog = s.rxlog := rfl
@[simp] theorem State.finish_hostlog (r : TxnResult) : (s.finish r).hostlog = s.hostlog := rfl
@[simp] theorem State.finish_inputs (r : TxnResult) : (s.finish r).inputs = s.inputs := rfl

/-! ### setPend -/

@[simp] theorem State.setPend_rxbuf (t : Pending) : (s.setPend t).rxbuf = s.rxbuf := rfl
@[simp] theorem State.setPend_pend (t : Pending) : (s.setPend t).pend = some t := rfl
@[simp] theorem State.setPend_result (t : Pending) : (s.setPend t).result = s.result := rfl
@[simp] theorem State.setPend_seq (t : Pending) : (s.setPend t).seq = s.seq := rfl
@[simp] theorem State.setPend_evq (t : Pending) : (s.setPend t).evq = s.evq := rfl
@[simp] theorem State.setPend_evqOvf (t : Pending) : (s.setPend t).evqOvf = s.evqOvf := rfl
@[simp] theorem State.setPend_tx (t : Pending) : (s.setPend t).tx = s.tx := rfl
@[simp] theorem State.setPend_rxlog (t : Pending) : (s.setPend t).rxlog = s.rxlog := rfl
@[simp] theorem State.setPend_hostlog (t : Pending) : (s.setPend t).hostlog = s.hostlog := rfl
@[simp] theorem State.setPend_inputs (t : Pending) : (s.setPend t).inputs = s.inputs := rfl

/-! ### clearResult -/

@[simp] theorem State.clearResult_rxbuf : s.clearResult.rxbuf = s.rxbuf := rfl
@[simp] theorem State.clearResult_pend : s.clearResult.pend = s.pend := rfl
@[simp] theorem State.clearResult_result : s.clearResult.result = none := rfl
@[simp] theorem State.clearResult_seq : s.clearResult.seq = s.seq := rfl
@[simp] theorem State.clearResult_evq : s.clearResult.evq = s.evq := rfl
@[simp] theorem State.clearResult_evqOvf : s.clearResult.evqOvf = s.evqOvf := rfl
@[simp] theorem State.clearResult_tx : s.clearResult.tx = s.tx := rfl
@[simp] theorem State.clearResult_rxlog : s.clearResult.rxlog = s.rxlog := rfl
@[simp] theorem State.clearResult_hostlog : s.clearResult.hostlog = s.hostlog := rfl
@[simp] theorem State.clearResult_inputs : s.clearResult.inputs = s.inputs := rfl

/-! ### setRxbuf -/

@[simp] theorem State.setRxbuf_rxbuf (b : Bytes) : (s.setRxbuf b).rxbuf = b := rfl
@[simp] theorem State.setRxbuf_pend (b : Bytes) : (s.setRxbuf b).pend = s.pend := rfl
@[simp] theorem State.setRxbuf_result (b : Bytes) : (s.setRxbuf b).result = s.result := rfl
@[simp] theorem State.setRxbuf_seq (b : Bytes) : (s.setRxbuf b).seq = s.seq := rfl
@[simp] theorem State.setRxbuf_evq (b : Bytes) : (s.setRxbuf b).evq = s.evq := rfl
@[simp] theorem State.setRxbuf_evqOvf (b : Bytes) : (s.setRxbuf b).evqOvf = s.evqOvf := rfl
@[simp] theorem State.setRxbuf_tx (b : Bytes) : (s.setRxbuf b).tx = s.tx := rfl
@[simp] theorem State.setRxbuf_rxlog (b : Bytes) : (s.setRxbuf b).rxlog = s.rxlog := rfl
@[simp] theorem State.setRxbuf_hostlog (b : Bytes) : (s.setRxbuf b).hostlog = s.hostlog := rfl
@[simp] theorem State.setRxbuf_inputs (b : Bytes) : (s.setRxbuf b).inputs = s.inputs := rfl

/-! ### clearEvents -/

@[simp] theorem State.clearEvents_rxbuf : s.clearEvents.rxbuf = s.rxbuf := rfl
@[simp] theorem State.clearEvents_pend : s.clearEvents.pend = s.pend := rfl
@[simp] theorem State.clearEvents_result : s.clearEvents.result = s.result := rfl
@[simp] theorem State.clearEvents_seq : s.clearEvents.seq = s.seq := rfl
@[simp] theorem State.clearEvents_evq : s.clearEvents.evq = [] := rfl
@[simp] theorem State.clearEvents_evqOvf : s.clearEvents.evqOvf = false := rfl
@[simp] theorem State.clearEvents_tx : s.clearEvents.tx = s.tx := rfl
@[simp] theorem State.clearEvents_rxlog : s.clearEvents.rxlog = s.rxlog := rfl
@[simp] theorem State.clearEvents_hostlog : s.clearEvents.hostlog = s.hostlog := rfl
@[simp] theorem State.clearEvents_inputs : s.clearEvents.inputs = s.inputs := rfl

/-! ### placeInput -/

@[simp] theorem State.placeInput_rxbuf (r : Bytes) : (s.placeInput r).rxbuf = s.rxbuf := rfl
@[simp] theorem State.placeInput_pend (r : Bytes) : (s.placeInput r).pend = s.pend := rfl
@[simp] theorem State.placeInput_result (r : Bytes) : (s.placeInput r).result = s.result := rfl
@[simp] theorem State.placeInput_seq (r : Bytes) : (s.placeInput r).seq = s.seq := rfl
@[simp] theorem State.placeInput_evq (r : Bytes) : (s.placeInput r).evq = s.evq := rfl
@[simp] theorem State.placeInput_evqOvf (r : Bytes) : (s.placeInput r).evqOvf = s.evqOvf := rfl
@[simp] theorem State.placeInput_tx (r : Bytes) : (s.placeInput r).tx = s.tx := rfl
@[simp] theorem State.placeInput_rxlog (r : Bytes) : (s.placeInput r).rxlog = s.rxlog := rfl
@[simp] theorem State.placeInput_hostlog (r : Bytes) : (s.placeInput r).hostlog = s.hostlog := rfl
@[simp] theorem State.placeInput_inputs (r : Bytes) : (s.placeInput r).inputs = r :: s.inputs := rfl

/-! ### resetOp -/

@[simp] theorem resetOp_rxbuf (p : Params) : (resetOp p s).rxbuf = [] := rfl
@[simp] theorem resetOp_pend (p : Params) : (resetOp p s).pend = none := rfl
@[simp] theorem resetOp_result (p : Params) : (resetOp p s).result = none := rfl
@[simp] theorem resetOp_seq (p : Params) : (resetOp p s).seq = p.seqReset := rfl
@[simp] theorem resetOp_evq (p : Params) : (resetOp p s).evq = [] := rfl
@[simp] theorem resetOp_evqOvf (p : Params) : (resetOp p s).evqOvf = false := rfl
@[simp] theorem resetOp_tx (p : Params) : (resetOp p s).tx = s.tx := rfl
@[simp] theorem resetOp_rxlog (p : Params) : (resetOp p s).rxlog = s.rxlog := rfl
@[simp] theorem resetOp_hostlog (p : Params) : (resetOp p s).hostlog = s.hostlog := rfl
@[simp] theorem resetOp_inputs (p : Params) : (resetOp p s).inputs = s.inputs := rfl

end Sys2Proof.Machine
end

