-- ==== Sys2Proof/Laws/Ops.lean ====
section
/-! SUPPORT. What each shared operation of Machine/Ops.lean and each condition of Machine/Flags.lean can do. -/

namespace Sys2Proof.Machine

/-! ### Flags -/

theorem done_iff (s : State) : s.done = true ↔ s.result ≠ none := by
  cases h : s.result <;> simp [State.done, h]

theorem busy_iff (s : State) : s.busy = true ↔ s.pend ≠ none := by
  cases h : s.pend <;> simp [State.busy, h]

theorem evPending_iff (s : State) : s.evPending = true ↔ s.evq ≠ [] := by
  cases h : s.evq <;> simp [State.evPending, h]

theorem endsWithMarker_iff (l : Bytes) :
    endsWithMarker l = true ↔ 2 ≤ l.length ∧ l.drop (l.length - 2) = marker := by
  simp [endsWithMarker]

/-- The marker test after an append looks at the byte before the appended one. -/
theorem endsWithMarker_append (l : Bytes) (b : Byte) :
    endsWithMarker (l ++ [b]) = true ↔ l.getLast? = some marker0 ∧ b = marker1 := by
  rw [endsWithMarker_iff]
  rcases List.eq_nil_or_concat l with rfl | ⟨m, a, rfl⟩
  · simp
  · simp [marker, marker0, marker1]

theorem expects_iff (s : State) (c : Byte) :
    s.expects c = true ↔ ∃ t, s.pend = some t ∧ t.expected = some c := by
  cases h : s.pend <;> simp [State.expects, h]

theorem expects_eq_false_iff (s : State) (c : Byte) :
    s.expects c = false ↔ ∀ t, s.pend = some t → t.expected ≠ some c := by
  cases h : s.pend <;> simp [State.expects, h]

theorem routes_iff (p : Params) (b : Bool) : routes p b = true ↔ b = true ∨ p.checkPolicy = .ignore := by
  simp [routes]

theorem hasRoom_iff (p : Params) (n : Nat) : hasRoom p n = true ↔ ∀ d, p.evqDepth = some d → n < d := by
  cases h : p.evqDepth <;> simp [hasRoom, h]

/-- A bounded queue has at least one place (R11). -/
theorem hasRoom_zero (p : Params) : hasRoom p 0 = true := by
  cases h : p.evqDepthPred <;> simp [hasRoom, Params.evqDepth, h]

theorem turnsAway_iff (s : State) (p : Params) :
    s.turnsAway p = true ↔ s.pend ≠ none ∧ p.submitPolicy = .rejectBusy := by
  simp [State.turnsAway, busy_iff]

/-! ### Sequence counter -/

theorem adv_max : adv 255 = 1 := rfl

theorem adv_of_ne (n : Byte) (h : n ≠ 255) : adv n = n + 1 := if_neg h

theorem adv_ne_zero (n : Byte) : adv n ≠ 0 := by
  by_cases h : n = 255
  · subst h; decide
  · rw [adv_of_ne n h]
    bv_omega

/-- The reset value of the counter is legal (R11). -/
theorem seqReset_ne_zero (p : Params) : p.seqReset ≠ 0 := by
  have := p.seqResetPred.isLt
  simp only [Params.seqReset]
  bv_omega

/-! ### The event queue -/

/-- All that queueing an event can do (R95). -/
theorem queueEvent_cases (p : Params) (e : Event) (s : State) :
    (hasRoom p s.evq.length = true ∧ State.queueEvent p e s = { s with evq := s.evq ++ [e] }) ∨
    (hasRoom p s.evq.length = false ∧ State.queueEvent p e s = { s with evqOvf := true }) := by
  cases h : hasRoom p s.evq.length <;> simp [State.queueEvent, h]

/-! ### The input schedule -/

theorem fetchInput_nil (s : State) (h : s.inputs = []) : fetchInput s = none := by simp [fetchInput, h]

theorem fetchInput_cons (s : State) (r : Bytes) (rest : List Bytes) (h : s.inputs = r :: rest) :
    fetchInput s = some (r, { s with inputs := rest }) := by simp [fetchInput, h]

theorem fetchInput_placeInput (s : State) (r : Bytes) : fetchInput (s.placeInput r) = some (r, s) := rfl

end Sys2Proof.Machine
end

