-- ==== Sys2Proof/Laws/Router.lean ====
section
/-! SUPPORT. What the router can do: one lemma per case function of 42_dispatch_router.md. -/

namespace Sys2Proof.Machine

/-- The state after a POLL that transmits the command (R90). -/
def sentState (t : Pending) (s : State) : State :=
  { s with
    tx := s.tx ++ enc t.code s.seq t.payload
    pend := some { t with st := .sentAwaitingAck, retries := t.retries + 1 } }

/-- The state after a POLL that spends the last retry (R91). -/
def spentState (s : State) : State :=
  { s with tx := s.tx ++ ackFrame, pend := none, result := some (.failed .maxRetriesExceeded) }

/-- The state after an idle ACK. -/
def ackedState (s : State) : State := { s with tx := s.tx ++ ackFrame }

theorem idleAck_eq (s : State) : s.idleAck = ackedState s := rfl

theorem sendOrFail_send (t : Pending) (s : State) (h : t.retries < maxRetries) :
    sendOrFail t s = sentState t s := if_pos h

theorem sendOrFail_fail (t : Pending) (s : State) (h : ¬ t.retries < maxRetries) :
    sendOrFail t s = spentState s := if_neg h

/-- All that a POLL can do (R88 to R91). -/
theorem onPoll_cases (s : State) :
    (s.pend = none ∧ onPoll s = ackedState s) ∨
    (∃ t, s.pend = some t ∧ t.st = .ackReceivedAwaitingData ∧ onPoll s = ackedState s) ∨
    (∃ t, s.pend = some t ∧ t.st ≠ .ackReceivedAwaitingData ∧ t.retries < maxRetries ∧
      onPoll s = sentState t s) ∨
    (∃ t, s.pend = some t ∧ t.st ≠ .ackReceivedAwaitingData ∧ ¬ t.retries < maxRetries ∧
      onPoll s = spentState s) := by
  cases h : s.pend with
  | none => exact .inl ⟨rfl, by simp [onPoll, h, idleAck_eq]⟩
  | some t =>
    have hsend : t.st ≠ .ackReceivedAwaitingData → onPoll s = sendOrFail t s := by
      cases ht : t.st <;> simp [onPoll, h, ht]
    by_cases ha : t.st = .ackReceivedAwaitingData
    · exact .inr (.inl ⟨t, rfl, ha, by simp [onPoll, h, ha, idleAck_eq]⟩)
    · by_cases hr : t.retries < maxRetries
      · exact .inr (.inr (.inl ⟨t, rfl, ha, hr, by rw [hsend ha, sendOrFail_send t s hr]⟩))
      · exact .inr (.inr (.inr ⟨t, rfl, ha, hr, by rw [hsend ha, sendOrFail_fail t s hr]⟩))

/-- The state after an ACK that moves the transaction on (R92). -/
def awaitingState (t : Pending) (s : State) : State :=
  { s with pend := some { t with st := .ackReceivedAwaitingData } }

/-- The state after an ack-only completion (R93). -/
def ackOnlyState (s : State) : State :=
  { s with pend := none, result := some (.success []), seq := adv s.seq }

theorem ackSent_none (t : Pending) (s : State) (h : t.expected = none) : ackSent t s = ackOnlyState s := by
  unfold ackSent
  split
  · rename_i c hc; exact absurd (h.symm.trans hc) (by simp)
  · rfl

theorem ackSent_some (t : Pending) (s : State) (c : Byte) (h : t.expected = some c) :
    ackSent t s = awaitingState t s := by
  unfold ackSent
  split
  · rfl
  · rename_i hc; exact absurd (h.symm.trans hc) (by simp)

/-- All that an ACK can do (R92, R93, R96). -/
theorem onAck_cases (s : State) :
    ((∀ t, s.pend = some t → t.st ≠ .sentAwaitingAck) ∧ onAck s = s) ∨
    (∃ t c, s.pend = some t ∧ t.st = .sentAwaitingAck ∧ t.expected = some c ∧ onAck s = awaitingState t s) ∨
    (∃ t, s.pend = some t ∧ t.st = .sentAwaitingAck ∧ t.expected = none ∧ onAck s = ackOnlyState s) := by
  cases h : s.pend with
  | none => exact .inl ⟨by simp, by simp [onAck, h]⟩
  | some t =>
    cases ht : t.st with
    | awaitingPoll => exact .inl ⟨by simp [ht], by simp [onAck, h, ht]⟩
    | ackReceivedAwaitingData => exact .inl ⟨by simp [ht], by simp [onAck, h, ht]⟩
    | sentAwaitingAck =>
      have hs : onAck s = ackSent t s := by simp [onAck, h, ht]
      cases he : t.expected with
      | none => exact .inr (.inr ⟨t, rfl, ht, he, by rw [hs, ackSent_none t s he]⟩)
      | some c => exact .inr (.inl ⟨t, c, rfl, ht, he, by rw [hs, ackSent_some t s c he]⟩)

/-- The state after a matched DATA frame (R94). -/
def matchedState (payload : Bytes) (s : State) : State :=
  { s with tx := s.tx ++ ackFrame, pend := none, result := some (.success payload) }

theorem onMatched_eq (payload : Bytes) (s : State) : onMatched payload s = matchedState payload s := rfl

/-- All that an unmatched DATA frame can do (R95). -/
theorem onUnmatched_cases (p : Params) (c : Byte) (payload : Bytes) (s : State) :
    (hasRoom p s.evq.length = true ∧ onUnmatched p c payload s =
      { s with tx := s.tx ++ ackFrame, evq := s.evq ++ [{ code := c, payload := payload }], seq := adv s.seq }) ∨
    (hasRoom p s.evq.length = false ∧ onUnmatched p c payload s =
      { s with tx := s.tx ++ ackFrame, evqOvf := true, seq := adv s.seq }) := by
  rcases queueEvent_cases p { code := c, payload := payload } s.idleAck with ⟨h, e⟩ | ⟨h, e⟩
  · exact .inl ⟨h, by rw [onUnmatched, e]; rfl⟩
  · exact .inr ⟨h, by rw [onUnmatched, e]; rfl⟩

theorem whenRouted_yes (p : Params) (f : Bytes) (g : State → State) (s : State)
    (h : verify f = true ∨ p.checkPolicy = .ignore) : whenRouted p f g s = g s :=
  if_pos ((routes_iff p _).mpr h)

theorem whenRouted_cases (p : Params) (f : Bytes) (g : State → State) (s : State) :
    (routes p (verify f) = true ∧ whenRouted p f g s = g s) ∨
    (routes p (verify f) = false ∧ whenRouted p f g s = s) := by
  cases h : routes p (verify f) <;> simp [whenRouted, h]

/-- All that routing a frame can do (R86, R87). -/
theorem route_cases (p : Params) (f : Bytes) (s : State) :
    (routes p (verify f) = false ∧ route p f s = s) ∨
    (routes p (verify f) = true ∧ cmdByte f = cmdPoll ∧ route p f s = onPoll s) ∨
    (routes p (verify f) = true ∧ cmdByte f = cmdAck ∧ route p f s = onAck s) ∨
    (routes p (verify f) = true ∧ isDataCmd (cmdByte f) = true ∧ s.expects (cmdByte f) = true ∧
      route p f s = matchedState (dec f).payload s) ∨
    (routes p (verify f) = true ∧ isDataCmd (cmdByte f) = true ∧ s.expects (cmdByte f) = false ∧
      route p f s = onUnmatched p (cmdByte f) (dec f).payload s) := by
  rcases whenRouted_cases p f (dispatch p (dec f)) s with ⟨h, e⟩ | ⟨h, e⟩
  · by_cases hp : cmdByte f = cmdPoll
    · exact .inr (.inl ⟨h, hp, by rw [route, e]; simp [dispatch, hp]⟩)
    · by_cases ha : cmdByte f = cmdAck
      · refine .inr (.inr (.inl ⟨h, ha, ?_⟩))
        rw [route, e, dispatch, dec_cmd, if_neg hp, if_pos ha]
      · have hd : isDataCmd (cmdByte f) = true := (isDataCmd_iff _).mpr ⟨hp, ha⟩
        have hr : route p f s = onData p (cmdByte f) (dec f).payload s := by
          rw [route, e, dispatch, dec_cmd, if_neg hp, if_neg ha]
        cases hx : s.expects (cmdByte f) with
        | true => exact .inr (.inr (.inr (.inl ⟨h, hd, rfl, by rw [hr]; simp [onData, hx, onMatched_eq]⟩)))
        | false => exact .inr (.inr (.inr (.inr ⟨h, hd, rfl, by rw [hr]; simp [onData, hx]⟩)))
  · exact .inl ⟨h, e⟩

end Sys2Proof.Machine
end

