-- ==== Sys2Proof/Laws/Reader.lean ====
section
/-! SUPPORT. What the reader can do: one lemma per function of 41_frame_reader.md, and what completion leaves alone. -/

namespace Sys2Proof.Machine

/-- All that one received byte can do (R78). -/
theorem receive_cases (p : Params) (b : Byte) (s : State) :
    (s.rxbuf.getLast? = some marker0 ∧ b = marker1 ∧ receive p b s = s.setRxbuf marker) ∨
    (endsWithMarker (s.rxbuf ++ [b]) = false ∧ isFrame (s.rxbuf ++ [b]) = true ∧
      receive p b s = completeFrame p (s.rxbuf ++ [b]) s) ∨
    (endsWithMarker (s.rxbuf ++ [b]) = false ∧ isFrame (s.rxbuf ++ [b]) = false ∧
      receive p b s = s.setRxbuf (s.rxbuf ++ [b])) := by
  cases hm : endsWithMarker (s.rxbuf ++ [b]) with
  | true =>
    obtain ⟨h1, h2⟩ := (endsWithMarker_append _ _).mp hm
    exact .inl ⟨h1, h2, by simp [receive, afterAppend, hm]⟩
  | false =>
    cases hf : isFrame (s.rxbuf ++ [b]) with
    | true => exact .inr (.inl ⟨rfl, rfl, by simp [receive, afterAppend, hm, hf]⟩)
    | false => exact .inr (.inr ⟨rfl, rfl, by simp [receive, afterAppend, hm, hf]⟩)

/-- Routing writes none of the reader's and the host port's fields (R36). -/
theorem route_frame (p : Params) (f : Bytes) (s : State) :
    (route p f s).rxbuf = s.rxbuf ∧ (route p f s).rxlog = s.rxlog ∧
    (route p f s).hostlog = s.hostlog ∧ (route p f s).inputs = s.inputs := by
  rcases route_cases p f s with ⟨-, e⟩ | ⟨-, -, e⟩ | ⟨-, -, e⟩ | ⟨-, -, -, e⟩ | ⟨-, -, -, e⟩ <;> rw [e]
  · simp
  · rcases onPoll_cases s with ⟨-, e⟩ | ⟨_, -, -, e⟩ | ⟨_, -, -, -, e⟩ | ⟨_, -, -, -, e⟩ <;> rw [e] <;>
      simp [ackedState, sentState, spentState]
  · rcases onAck_cases s with ⟨-, e⟩ | ⟨_, _, -, -, -, e⟩ | ⟨_, -, -, -, e⟩ <;> rw [e] <;>
      simp [awaitingState, ackOnlyState]
  · simp [matchedState]
  · rcases onUnmatched_cases p (cmdByte f) (dec f).payload s with ⟨-, e⟩ | ⟨-, e⟩ <;> rw [e] <;> simp

/-! ### Completion, field by field (R81) -/

@[simp] theorem completeFrame_rxbuf (p : Params) (f : Bytes) (s : State) : (completeFrame p f s).rxbuf = [] := by
  simp [completeFrame, (route_frame p f (s.setRxbuf [])).1]

@[simp] theorem completeFrame_rxlog (p : Params) (f : Bytes) (s : State) :
    (completeFrame p f s).rxlog = s.rxlog ++ [frameRec p f] := by
  simp [completeFrame, (route_frame p f (s.setRxbuf [])).2.1]

@[simp] theorem completeFrame_hostlog (p : Params) (f : Bytes) (s : State) :
    (completeFrame p f s).hostlog = s.hostlog := by
  simp [completeFrame, (route_frame p f (s.setRxbuf [])).2.2.1]

@[simp] theorem completeFrame_inputs (p : Params) (f : Bytes) (s : State) :
    (completeFrame p f s).inputs = s.inputs := by
  simp [completeFrame, (route_frame p f (s.setRxbuf [])).2.2.2]

@[simp] theorem completeFrame_tx (p : Params) (f : Bytes) (s : State) :
    (completeFrame p f s).tx = (route p f (s.setRxbuf [])).tx := rfl

@[simp] theorem completeFrame_pend (p : Params) (f : Bytes) (s : State) :
    (completeFrame p f s).pend = (route p f (s.setRxbuf [])).pend := rfl

@[simp] theorem completeFrame_result (p : Params) (f : Bytes) (s : State) :
    (completeFrame p f s).result = (route p f (s.setRxbuf [])).result := rfl

@[simp] theorem completeFrame_seq (p : Params) (f : Bytes) (s : State) :
    (completeFrame p f s).seq = (route p f (s.setRxbuf [])).seq := rfl

@[simp] theorem completeFrame_evq (p : Params) (f : Bytes) (s : State) :
    (completeFrame p f s).evq = (route p f (s.setRxbuf [])).evq := rfl

@[simp] theorem completeFrame_evqOvf (p : Params) (f : Bytes) (s : State) :
    (completeFrame p f s).evqOvf = (route p f (s.setRxbuf [])).evqOvf := rfl

end Sys2Proof.Machine
end

