-- ==== Sys2Proof/Laws/Exec.lean ====
section
/-! SUPPORT. What each host operation can do, what `exec` calls for each row, and what `step` can do. -/

namespace Sys2Proof.Machine

/-! ### Host operations -/

/-- All that SUBMIT can do (R99). -/
theorem submitOp_cases (p : Params) (code : Byte) (expected : Option Byte) (plen : Byte) (payload : Bytes)
    (s : State) :
    (maxTxPayload < plen.toNat ∧
      submitOp p code expected plen payload s = s.refuse .payloadTooLong) ∨
    (plen.toNat ≤ maxTxPayload ∧ s.turnsAway p = true ∧
      submitOp p code expected plen payload s = s.refuse .busy) ∨
    (plen.toNat ≤ maxTxPayload ∧ s.turnsAway p = false ∧
      submitOp p code expected plen payload s =
        { s with
          pend := some (newPending code expected payload)
          result := none
          hostlog := s.hostlog ++ [.status .ok] }) := by
  by_cases h : maxTxPayload < plen.toNat
  · exact .inl ⟨h, if_pos h⟩
  · have h' := Nat.le_of_not_lt h
    cases hb : s.turnsAway p with
    | true => exact .inr (.inl ⟨h', rfl, by rw [submitOp, if_neg h, hb]; rfl⟩)
    | false => exact .inr (.inr ⟨h', rfl, by rw [submitOp, if_neg h, hb]; rfl⟩)

theorem takeOp_eq (s : State) :
    takeOp s = { s with result := none, hostlog := s.hostlog ++ [.result s.result] } := rfl

/-! ### Rows -/

@[simp] theorem exec_rxByte (b : Byte) (s : State) :
    exec (.rxByte b) s = .next (receive Config.params b s) := rfl

@[simp] theorem exec_frameStd (m0 m1 cmd len seqno : Byte) (payload : Bytes) (chk : Byte) (s : State) :
    exec (.frameStd m0 m1 cmd len seqno payload chk) s =
      .next (completeFrame Config.params (stdFrame m0 m1 cmd len seqno payload chk) s) := rfl

@[simp] theorem exec_frameShort (m0 m1 cmd chk : Byte) (s : State) :
    exec (.frameShort m0 m1 cmd chk) s =
      .next (completeFrame Config.params (shortFrame m0 m1 cmd chk) s) := rfl

@[simp] theorem exec_poll (f : Bytes) (s : State) :
    exec (.poll f) s = .next (whenRouted Config.params f onPoll s) := rfl

@[simp] theorem exec_ack (f : Bytes) (s : State) :
    exec (.ack f) s = .next (whenRouted Config.params f onAck s) := rfl

@[simp] theorem exec_dataMatched (f : Bytes) (s : State) :
    exec (.dataMatched f) s = .next (whenRouted Config.params f (matchedCase (dec f)) s) := rfl

@[simp] theorem exec_dataUnmatched (f : Bytes) (s : State) :
    exec (.dataUnmatched f) s =
      .next (whenRouted Config.params f (unmatchedCase Config.params (dec f)) s) := rfl

@[simp] theorem exec_txAck (s : State) : exec .txAck s = .next (ackedState s) := rfl

@[simp] theorem exec_txCmd (code seq : Byte) (payload : Bytes) (s : State) :
    exec (.txCmd code seq payload) s = .next (s.emitTx (enc code seq payload)) := rfl

@[simp] theorem exec_submit (code : Byte) (expValid : Bool) (exp plen : Byte) (payload : Bytes) (s : State) :
    exec (.submit code expValid exp plen payload) s =
      .next (submitOp Config.params code (expectedOf expValid exp) plen payload s) := rfl

@[simp] theorem exec_takeResult (s : State) : exec .takeResult s = .next (takeOp s) := rfl

@[simp] theorem exec_status (s : State) :
    exec .status s = .next (s.giveBack (.snapshot (snapshotOf s))) := rfl

@[simp] theorem exec_drain (s : State) :
    exec .drain s = .next (s.clearEvents.giveBack (.events s.evq s.evqOvf)) := rfl

@[simp] theorem exec_reservedOp (low : BitVec 2) (operands : Bytes) (s : State) :
    exec (.reservedOp low operands) s = .next (s.refuse .reservedOp) := rfl

@[simp] theorem exec_reset (s : State) : exec .reset s = .next (resetOp Config.params s) := rfl

/-- No row stops: the block raises no fault and refuses no instruction (R107). -/
theorem exec_next (i : Instr) (s : State) : ∃ t, exec i s = .next t := by
  cases i <;> exact ⟨_, rfl⟩

/-- A routed DATA frame does what the row of its case does (R87). -/
theorem dispatch_data (p : Params) (d : Decoded) (s : State) (h : isDataCmd d.cmd = true) :
    dispatch p d s = if s.expects d.cmd then matchedCase d s else unmatchedCase p d s := by
  obtain ⟨hp, ha⟩ := (isDataCmd_iff _).mp h
  cases hx : s.expects d.cmd <;> simp [dispatch, hp, ha, onData, matchedCase, unmatchedCase, hx]

/-! ### Steps -/

/-- All that a step can do. -/
theorem step_cases (s : State) :
    (s.inputs = [] ∧ step s = .next s) ∨
    (∃ r rest e, s.inputs = r :: rest ∧ decode r = .error e ∧ step s = .refused (.malformedInput e)) ∨
    (∃ r rest i, s.inputs = r :: rest ∧ decode r = .ok i ∧ step s = exec i { s with inputs := rest }) := by
  cases h : s.inputs with
  | nil => exact .inl ⟨rfl, by simp [step, fetchInput_nil s h]⟩
  | cons r rest =>
    cases hd : decode r with
    | error e => exact .inr (.inl ⟨r, rest, e, rfl, hd, by simp [step, fetchInput_cons s r rest h, hd]⟩)
    | ok i => exact .inr (.inr ⟨r, rest, i, rfl, hd, by simp [step, fetchInput_cons s r rest h, hd]⟩)

theorem step_withFetchWord (s : State) (nbits w : Nat) (i : Instr)
    (h : decode (tableRecord nbits w) = .ok i) : step (s.withFetchWord nbits w) = exec i s := by
  simp [step, State.withFetchWord, fetchInput_placeInput, h]

end Sys2Proof.Machine
end

