-- ==== Sys2Proof/Laws/PerInstr.lean ====
section
/-! SUPPORT. Statements about every instruction as syntax, one lemma per constructor. -/

namespace Sys2Proof.Laws.PortByte

open Sys2Proof

/-- The port an instruction's record names (30_encoding.md R65; the port bytes are the model's, entry 2). -/
def portOf : Instr → Byte
  | .rxByte _ => portReceive
  | .frameStd _ _ _ _ _ _ _ => portFrame
  | .frameShort _ _ _ _ => portFrame
  | .poll _ => portRouter
  | .ack _ => portRouter
  | .dataMatched _ => portMatched
  | .dataUnmatched _ => portUnmatched
  | .txAck => portTransmit
  | .txCmd _ _ _ => portTransmit
  | .submit _ _ _ _ _ => portHost
  | .takeResult => portHost
  | .status => portHost
  | .drain => portHost
  | .reservedOp _ _ => portHost
  | .reset => portReset

/-- The record begins with the instruction's port byte, and every record of an input event comes from one of the
three ports of R65. -/
def Statement (i : Instr) : Prop :=
  (encode i).head? = some (portOf i) ∧
  (i.isEvent = true ↔ portOf i = portReceive ∨ portOf i = portHost ∨ portOf i = portReset)

theorem rxByte (b : Byte) : Statement (.rxByte b) := ⟨rfl, by simp [Instr.isEvent, portOf]⟩

theorem frameStd (m0 m1 cmd len seqno : Byte) (payload : Bytes) (chk : Byte) :
    Statement (.frameStd m0 m1 cmd len seqno payload chk) :=
  ⟨rfl, by simp [Instr.isEvent, portOf, portFrame, portReceive, portHost, portReset]⟩

theorem frameShort (m0 m1 cmd chk : Byte) : Statement (.frameShort m0 m1 cmd chk) :=
  ⟨rfl, by simp [Instr.isEvent, portOf, portFrame, portReceive, portHost, portReset]⟩

theorem poll (frame : Bytes) : Statement (.poll frame) :=
  ⟨rfl, by simp [Instr.isEvent, portOf, portRouter, portReceive, portHost, portReset]⟩

theorem ack (frame : Bytes) : Statement (.ack frame) :=
  ⟨rfl, by simp [Instr.isEvent, portOf, portRouter, portReceive, portHost, portReset]⟩

theorem dataMatched (frame : Bytes) : Statement (.dataMatched frame) :=
  ⟨rfl, by simp [Instr.isEvent, portOf, portMatched, portReceive, portHost, portReset]⟩

theorem dataUnmatched (frame : Bytes) : Statement (.dataUnmatched frame) :=
  ⟨rfl, by simp [Instr.isEvent, portOf, portUnmatched, portReceive, portHost, portReset]⟩

theorem txAck : Statement .txAck :=
  ⟨rfl, by simp [Instr.isEvent, portOf, portTransmit, portReceive, portHost, portReset]⟩

theorem txCmd (code seq : Byte) (payload : Bytes) : Statement (.txCmd code seq payload) :=
  ⟨rfl, by simp [Instr.isEvent, portOf, portTransmit, portReceive, portHost, portReset]⟩

theorem submit (code : Byte) (expValid : Bool) (exp plen : Byte) (payload : Bytes) :
    Statement (.submit code expValid exp plen payload) := ⟨rfl, by simp [Instr.isEvent, portOf]⟩

theorem takeResult : Statement .takeResult := ⟨rfl, by simp [Instr.isEvent, portOf]⟩

theorem status : Statement .status := ⟨rfl, by simp [Instr.isEvent, portOf]⟩

theorem drain : Statement .drain := ⟨rfl, by simp [Instr.isEvent, portOf]⟩

theorem reservedOp (low : BitVec 2) (operands : Bytes) : Statement (.reservedOp low operands) :=
  ⟨rfl, by simp [Instr.isEvent, portOf]⟩

theorem reset : Statement .reset := ⟨rfl, by simp [Instr.isEvent, portOf]⟩

end Sys2Proof.Laws.PortByte
end

