-- ==== Sys2Proof/Tests/Slice0.lean ====
section
/-! SUPPORT. Tests: well-formedness checks refuse, written words decode, the spec's vectors (95_test_vectors.md),
and for each statement with hypotheses a state and operands that meet them all. -/

namespace Sys2Proof.Tests

open Sys2Proof.Machine

/-! ## Small states -/

/-- The parameter values of 95_test_vectors.md: `SEQ_RESET = 1`, `Ignore`, `Overwrite`, `unbounded`. -/
def parity : Params :=
  { seqResetPred := 0, checkPolicy := .ignore, submitPolicy := .overwrite, evqDepthPred := none }

/-- Those values with `CHECK_POLICY = Drop`. -/
def dropping : Params := { parity with checkPolicy := .drop }

/-- Those values with `SUBMIT_POLICY = RejectBusy`. -/
def rejecting : Params := { parity with submitPolicy := .rejectBusy }

/-- Those values with `EVQ_DEPTH = 1`. -/
def depthOne : Params := { parity with evqDepthPred := some 0 }

/-- The reset state of the vectors. -/
def s0 : State := State.resetWith parity

/-- The reset state with a pending transaction. -/
def pending (code : Byte) (payload : Bytes) (expected : Option Byte) (st : Lifecycle) (retries : Nat) : State :=
  { s0 with
    pend := some { code := code, payload := payload, expected := expected, st := st, retries := retries } }

/-- The reset state with a partly received frame. -/
def reading (buf : Bytes) : State := { s0 with rxbuf := buf }

def pollFrame : Bytes := [0xFA, 0xFB, 0x41, 0x00, 0x40]

def dispenseStatus : Bytes := [0xFA, 0xFB, 0x04, 0x02, 0x01, 0x02, 0x04]

def moneyFrame : Bytes := [0xFA, 0xFB, 0x21, 0x02, 0x07, 0x05, 0x20]

def badPoll : Bytes := [0xFA, 0xFB, 0x41, 0x00, 0x41]

/-- The transaction of V-RT-3 and P1, in a given state. -/
def dispense (st : Lifecycle) (retries : Nat) : State := pending 0x03 [0x00, 0x0A] (some 0x04) st retries

/-! ## Well-formedness: one ill-formed term for each check -/

theorem test_wf_frameStd_length : (Instr.frameStd 0xFA 0xFB 0x53 0x02 0x01 [] 0x51).wf = false := by decide

theorem test_wf_frameStd_zero : (Instr.frameStd 0xFA 0xFB 0x53 0x00 0x01 [] 0x52).wf = false := by decide

theorem test_wf_poll_incomplete : (Instr.poll [0xFA, 0xFB, 0x41, 0x01, 0x40]).wf = false := by decide

theorem test_wf_poll_class : (Instr.poll ackFrame).wf = false := by decide

theorem test_wf_ack_incomplete : (Instr.ack [0xFA, 0xFB, 0x42, 0x00]).wf = false := by decide

theorem test_wf_ack_class : (Instr.ack pollFrame).wf = false := by decide

theorem test_wf_dataMatched_class : (Instr.dataMatched pollFrame).wf = false := by decide

theorem test_wf_dataMatched_incomplete : (Instr.dataMatched [0xFA, 0xFB, 0x04]).wf = false := by decide

theorem test_wf_dataUnmatched_class : (Instr.dataUnmatched ackFrame).wf = false := by decide

theorem test_wf_dataUnmatched_incomplete : (Instr.dataUnmatched []).wf = false := by decide

theorem test_wf_txCmd_ackCode : (Instr.txCmd 0x42 1 []).wf = false := by decide

theorem test_wf_txCmd_seqZero : (Instr.txCmd 0x53 0 []).wf = false := by decide

theorem test_wf_txCmd_payload : (Instr.txCmd 0x53 1 (List.replicate 255 0)).wf = false := by decide +kernel

theorem test_wf_submit_plen : (Instr.submit 0x03 false 0 2 [0x00]).wf = false := by decide

/-! ## Decoding: words written out from R51, R59, R65 and R66, after the model's port byte -/

theorem test_decode_rxByte : decode [0x00, 0b11111010] = .ok (.rxByte 0xFA) := rfl

theorem test_decode_frameStd :
    decode [0x03, 0xFA, 0xFB, 0x04, 0x03, 0x03, 0x01, 0x02, 0x06] =
      .ok (.frameStd 0xFA 0xFB 0x04 0x03 0x03 [0x01, 0x02] 0x06) := rfl

theorem test_decode_frameShort :
    decode [0x03, 0x00, 0x00, 0x00, 0x00, 0x00] = .ok (.frameShort 0x00 0x00 0x00 0x00) := rfl

theorem test_decode_poll : decode [0x04, 0xFA, 0xFB, 0x41, 0x00, 0x40] = .ok (.poll pollFrame) := rfl

theorem test_decode_ack : decode [0x04, 0xFA, 0xFB, 0x42, 0x00, 0x43] = .ok (.ack ackFrame) := rfl

theorem test_decode_dataMatched :
    decode [0x05, 0xFA, 0xFB, 0x04, 0x02, 0x01, 0x02, 0x04] = .ok (.dataMatched dispenseStatus) := rfl

theorem test_decode_dataUnmatched :
    decode [0x06, 0xFA, 0xFB, 0x21, 0x02, 0x07, 0x05, 0x20] = .ok (.dataUnmatched moneyFrame) := rfl

theorem test_decode_txAck :
    decode [0x07, 0b11111010, 0b11111011, 0b01000010, 0b00000000, 0b01000011] = .ok .txAck := rfl

theorem test_decode_txCmd :
    decode [0x07, 0xFA, 0xFB, 0x12, 0x04, 0x01, 0x0A, 0x00, 0x64, 0x78] =
      .ok (.txCmd 0x12 0x01 [0x0A, 0x00, 0x64]) := rfl

theorem test_decode_submit :
    decode [0x02, 0b000, 0x03, 0x01, 0x04, 0x02, 0x00, 0x0A] =
      .ok (.submit 0x03 true 0x04 0x02 [0x00, 0x0A]) := rfl

theorem test_decode_takeResult : decode [0x02, 0b001] = .ok .takeResult := rfl

theorem test_decode_status : decode [0x02, 0b010] = .ok .status := rfl

theorem test_decode_drain : decode [0x02, 0b011] = .ok .drain := rfl

theorem test_decode_reservedOp : decode [0x02, 0b101, 0x77] = .ok (.reservedOp 0b01 [0x77]) := rfl

theorem test_decode_reset : decode [0x01, 0b1] = .ok .reset := rfl

theorem test_decode_rejects :
    decode [] = .error .emptyRecord ∧ decode [0x08] = .error .unknownPort ∧
    decode [0x00] = .error .notOneByte ∧ decode [0x01] = .error .badResetRecord ∧
    decode [0x01, 0x00] = .error .resetNotAsserted ∧ decode [0x02] = .error .noSelector ∧
    decode [0x02, 0x08] = .error .selectorTooWide ∧ decode [0x02, 0x00, 0x03] = .error .shortSubmit ∧
    decode [0x02, 0x00, 0x03, 0x02, 0x00, 0x00] = .error .badExpValid ∧
    decode [0x02, 0x00, 0x03, 0x00, 0x00, 0x01] = .error .badPlen ∧
    decode [0x02, 0x01, 0x00] = .error .unexpectedOperands ∧
    decode [0x03, 0xFA, 0xFB, 0x53, 0x01, 0x01] = .error .notAFrame ∧
    decode (0x04 :: moneyFrame) = .error .wrongClass ∧
    decode [0x07, 0xFA, 0xFB, 0x53, 0x01, 0x01, 0x53] = .error .notAnEncodedFrame :=
  ⟨rfl, rfl, rfl, rfl, rfl, rfl, rfl, rfl, rfl, rfl, rfl, rfl, rfl, rfl⟩

/-! ## The opcode table's numbering -/

theorem test_table_rxByte : decodeTableWord 8 0x00 = some (.rxByte 0x00) := rfl

theorem test_table_submit : decodeTableWord 3 0b000 = some (.submit 0 false 0 0 []) := rfl

theorem test_table_reserved : decodeTableWord 3 0b111 = some (.reservedOp 0b11 []) := rfl

theorem test_table_reset : decodeTableWord 1 0b1 = some .reset := rfl

theorem test_table_txAck : decodeTableWord 40 0x430042FBFA = some .txAck := rfl

theorem test_table_poll : decodeTableWord 40 0x400041FBFA = some (.poll pollFrame) := rfl

/-- Zeros fill the frame up to the length its length byte declares. -/
theorem test_table_filled :
    decodeTableWord 40 0x000202FBFA = some (.frameStd 0xFA 0xFB 0x02 0x02 0x00 [0x00] 0x00) := rfl

/-- The very next step after reset runs the table word. -/
theorem test_table_runs_first :
    step (State.reset.withFetchWord 40 0x430042FBFA) = exec .txAck State.reset := rfl

/-! ## Codec vectors -/

/-- V-CD-3. -/
theorem test_enc_setPrice :
    enc codeSetPrice 1 [0x0A, 0x00, 0x64] = [0xFA, 0xFB, 0x12, 0x04, 0x01, 0x0A, 0x00, 0x64, 0x78] := by decide

/-- V-CD-8. -/
theorem test_enc_seqMax : enc codeRequestStatusSimple 255 [] = [0xFA, 0xFB, 0x53, 0x01, 0xFF, 0xAC] := by decide

/-- V-CD-9, the longest frame. -/
theorem test_enc_longest :
    enc codeMachineStatusSimple 0x10 (List.replicate 254 0) =
      [0xFA, 0xFB, 0x54, 0xFF, 0x10] ++ List.replicate 254 0 ++ [0xBA] := by decide +kernel

/-- V-CD-15. -/
theorem test_dec_dispensing :
    dec [0xFA, 0xFB, 0x04, 0x03, 0x03, 0x01, 0x02, 0x06] =
      { raw := [0xFA, 0xFB, 0x04, 0x03, 0x03, 0x01, 0x02, 0x06], cmd := codeDispensingStatus, len := 3,
        seqno := some 0x03, payload := [0x01, 0x02], chk := 0x06 } := rfl

/-- V-CD-17 to V-CD-20. -/
theorem test_verify :
    verify [0xFA, 0xFB, 0x53, 0x01, 0x01, 0x52] = true ∧ verify [0xFA, 0xFB, 0x53, 0x01, 0x01, 0x53] = false ∧
    verify [0x00, 0x00, 0x00, 0x00, 0x00] = true ∧ verify badPoll = false := by decide

/-- R109. -/
theorem test_numbers :
    (OpStatus.ok.number, OpStatus.busy.number, OpStatus.payloadTooLong.number, OpStatus.reservedOp.number) =
      (0, 1, 2, 3) ∧
    ((TxnResult.success []).number, (TxnResult.failed .maxRetriesExceeded).number) = (0, 1) := ⟨rfl, rfl⟩

/-! ## Row vectors: one step each -/

/-- V-RD-6: resynchronization wins over completion. -/
theorem test_rxByte_markerEnd :
    exec (.rxByte 0xFB) (reading [0xFA, 0xFB, 0x06, 0x02, 0x04, 0xFA]) = .next (reading [0xFA, 0xFB]) := rfl

/-- V-RD-7: a frame cut short is completed by the next frame's first byte, logged with a failed checksum. -/
theorem test_rxByte_cutShort :
    (receive parity 0xFA (reading [0xFA, 0xFB, 0x53, 0x01, 0x01])).rxlog.map
        (fun r => (r.raw, r.chkOk, r.routed)) =
      [([0xFA, 0xFB, 0x53, 0x01, 0x01, 0xFA], false, true)] := by decide

/-- V-RD-1: a standard-form DATA frame, unmatched. -/
theorem test_frameStd_status :
    (let t := completeFrame parity (stdFrame 0xFA 0xFB 0x53 0x01 0x01 [] 0x52) s0
     (t.rxbuf, t.tx, t.evq, t.seq, t.rxlog.length)) =
      ([], ackFrame, [{ code := 0x53, payload := [] }], 2, 1) := by decide

/-- V-RD-11: a short frame that fails its checksum under Drop. -/
theorem test_frameShort_dropped :
    (let t := completeFrame dropping (shortFrame 0x00 0x00 0x00 0x01) s0
     (t.tx, t.evq, t.seq, t.rxlog.map (fun r => (r.chkOk, r.routed)))) =
      ([], [], 1, [(false, false)]) := by decide

/-- V-RD-9: noise that verifies is routed under Drop as well. -/
theorem test_frameShort_noise :
    (let t := completeFrame dropping (shortFrame 0x00 0x00 0x00 0x00) s0
     (t.tx, t.evq, t.seq)) = (ackFrame, [{ code := 0x00, payload := [] }], 2) := by decide

/-- V-RT-3. -/
theorem test_poll_transmits :
    exec (.poll pollFrame) (dispense .awaitingPoll 0) =
      .next { dispense .sentAwaitingAck 1 with tx := [0xFA, 0xFB, 0x03, 0x03, 0x01, 0x00, 0x0A, 0x0A] } := rfl

/-- V-RT-5. -/
theorem test_poll_spent :
    exec (.poll pollFrame) (pending 0x53 [] none .sentAwaitingAck 5) =
      .next { s0 with tx := ackFrame, result := some (.failed .maxRetriesExceeded) } := rfl

/-- V-RT-6. -/
theorem test_ack_awaits :
    exec (.ack ackFrame) (dispense .sentAwaitingAck 1) = .next (dispense .ackReceivedAwaitingData 1) := rfl

/-- V-RT-8. -/
theorem test_ack_wraps :
    exec (.ack ackFrame) { pending 0x12 [0x0A, 0x00, 0x64] none .sentAwaitingAck 1 with seq := 255 } =
      .next { s0 with result := some (.success []), seq := 1 } := rfl

/-- V-RT-12. -/
theorem test_dataMatched_dispensing :
    exec (.dataMatched dispenseStatus) (dispense .ackReceivedAwaitingData 1) =
      .next { s0 with tx := ackFrame, result := some (.success [0x02]) } := rfl

/-- V-RT-13: an early match, before the command was sent. -/
theorem test_dataMatched_early :
    exec (.dataMatched [0xFA, 0xFB, 0x54, 0x02, 0x02, 0x00, 0x55])
        (pending 0x53 [] (some 0x54) .awaitingPoll 0) =
      .next { s0 with tx := ackFrame, result := some (.success [0x00]) } := rfl

/-- V-RT-14. -/
theorem test_dataUnmatched_money :
    whenRouted parity moneyFrame (unmatchedCase parity (dec moneyFrame)) s0 =
      { s0 with tx := ackFrame, evq := [{ code := codeMoneyReceived, payload := [0x05] }], seq := 2 } := rfl

/-- V-RT-17: the second event of a queue of depth 1. -/
theorem test_dataUnmatched_full :
    (let s := { s0 with evq := [{ code := 0x21, payload := [0x05] }], seq := 2 }
     let t := unmatchedCase depthOne (dec [0xFA, 0xFB, 0x21, 0x02, 0x08, 0x06, 0x2C]) s
     (t.evq, t.evqOvf, t.seq, t.tx)) =
      ([{ code := 0x21, payload := [0x05] }], true, 3, ackFrame) := by decide

theorem test_txAck : exec .txAck s0 = .next { s0 with tx := ackFrame } := rfl

/-- V-CD-5. -/
theorem test_txCmd :
    exec (.txCmd codeMenuCommandWrapper 2 [0x01, 0x05]) s0 =
      .next { s0 with tx := [0xFA, 0xFB, 0x70, 0x03, 0x02, 0x01, 0x05, 0x74] } := rfl

/-- V-HO-1. -/
theorem test_submit_accepted :
    exec (.submit codeDispenseItem true 0x04 2 [0x00, 0x0A]) s0 =
      .next { dispense .awaitingPoll 0 with hostlog := [.status .ok] } := rfl

/-- V-HO-3 and V-HO-4: the two policies on the same SUBMIT. -/
theorem test_submit_policies :
    submitOp rejecting 0x03 (some 0x04) 2 [0x00, 0x0B] (dispense .sentAwaitingAck 1) =
      { dispense .sentAwaitingAck 1 with hostlog := [.status .busy] } ∧
    submitOp parity 0x03 (some 0x04) 2 [0x00, 0x0B] (dispense .sentAwaitingAck 1) =
      { pending 0x03 [0x00, 0x0B] (some 0x04) .awaitingPoll 0 with hostlog := [.status .ok] } := ⟨rfl, rfl⟩

/-- V-HO-6. -/
theorem test_takeResult :
    exec .takeResult { s0 with result := some (.success [0x02]) } =
      .next { s0 with hostlog := [.result (some (.success [0x02]))] } := rfl

/-- V-HO-7. -/
theorem test_status_reset :
    exec .status s0 = .next
      { s0 with
        hostlog := [.snapshot
          { busy := false, st := none, retries := 0, code := none, expected := none, done := false,
            result := none, seq := 1, evqLen := 0, evqOvf := false }] } := rfl

/-- V-HO-9. -/
theorem test_drain_overflow :
    exec .drain { s0 with evq := [{ code := 0x21, payload := [0x05] }], evqOvf := true } =
      .next { s0 with hostlog := [.events [{ code := 0x21, payload := [0x05] }] true] } := rfl

/-- V-HO-10. -/
theorem test_reservedOp :
    exec (.reservedOp 0b01 []) s0 = .next { s0 with hostlog := [.status .reservedOp] } := rfl

/-- V-HO-11: the traces are kept. -/
theorem test_reset :
    resetOp parity
        { dispense .sentAwaitingAck 3 with
          rxbuf := [0xFA], result := some (.success []), seq := 9, evqOvf := true, tx := ackFrame } =
      { s0 with tx := ackFrame } := rfl

/-! ## Witnesses: for each statement with hypotheses, values that meet them all -/

theorem routed_poll : Routed pollFrame := .inl (by decide)

theorem routed_ack : Routed ackFrame := .inl (by decide)

theorem routed_dispensing : Routed dispenseStatus := .inl (by decide)

theorem routed_money : Routed moneyFrame := .inl (by decide)

theorem witness_DecodeOfEncodedFrame :
    (0x54 : Byte) ≠ 0x42 ∧ (List.replicate 254 (0 : Byte)).length ≤ 254 := by decide +kernel

theorem witness_EncodedFrameSizes : (List.replicate 254 (0 : Byte)).length ≤ 254 := by decide +kernel

theorem witness_AlteredByteFailsVerification :
    isFrame ackFrame = true ∧ verify ackFrame = true ∧ 4 < ackFrame.length ∧ ackFrame[4]? ≠ some 0x42 := by decide

theorem witness_DecoderFields :
    ([] : Bytes).length + 1 = (0x01 : Byte).toNat ∧
    (List.replicate 254 (0 : Byte)).length + 1 = (0xFF : Byte).toNat := by decide +kernel

theorem witness_DecodeAfterEncode : (Instr.submit 0x03 true 0x04 2 [0x00, 0x0A]).wf = true := by decide

theorem witness_EncodeAfterDecode : decode [portHost, 0x01] = .ok .takeResult := rfl

theorem witness_StepRunsDecodedInstruction :
    ({ s0 with inputs := [[portHost, 0x02]] } : State).inputs = [portHost, 0x02] :: [] ∧
    decode [portHost, 0x02] = .ok .status ∧ Instr.status.wf = true := ⟨rfl, rfl, rfl⟩

theorem witness_StepWithoutInstruction :
    s0.inputs = [] ∧ ({ s0 with inputs := [[]] } : State).inputs = [] :: [] ∧
    decode [] = .error .emptyRecord := ⟨rfl, rfl, rfl⟩

theorem witness_LegalStepCompletes :
    ({ s0 with inputs := [[portReceive, 0xFA], [portReset, 0x01]] } : State).LegalSchedule := by
  intro r hr
  simp only [List.mem_cons, List.not_mem_nil, or_false] at hr
  rcases hr with rfl | rfl
  · exact ⟨.rxByte 0xFA, rfl, rfl⟩
  · exact ⟨.reset, rfl, rfl⟩

theorem witness_ScheduleRunsInOrder :
    (∀ i ∈ [Instr.rxByte 0xFA, .status], i.wf = true) ∧
    ({ s0 with inputs := [[portReceive, 0xFA], [portHost, 0x02]] } : State).inputs =
      [Instr.rxByte 0xFA, .status].map encode ++ [] := ⟨by decide, rfl⟩

theorem witness_MarkerPairResynchronizes : (reading [0x00, 0x11, 0xFA]).rxbuf.getLast? = some 0xFA := rfl

/-- Both boundaries: a fourth byte, and a fifth byte of a frame whose length byte is 1. -/
theorem witness_UnfinishedFrameKeepsByte :
    ¬ ((reading [0xFA, 0xFB, 0x53]).rxbuf.getLast? = some 0xFA ∧ (0x01 : Byte) = 0xFB) ∧
    (reading [0xFA, 0xFB, 0x53]).rxbuf.length + 1 < 5 ∧
    ¬ ((reading [0xFA, 0xFB, 0x53, 0x01]).rxbuf.getLast? = some 0xFA ∧ (0x01 : Byte) = 0xFB) ∧
    (reading [0xFA, 0xFB, 0x53, 0x01]).rxbuf.length + 1 ≠
      (((reading [0xFA, 0xFB, 0x53, 0x01]).rxbuf ++ [0x01]).getD 3 0).toNat + 5 := by decide

theorem witness_CompletedFrameIsRoutedAndLogged :
    ¬ ((reading [0xFA, 0xFB, 0x41, 0x00]).rxbuf.getLast? = some 0xFA ∧ (0x40 : Byte) = 0xFB) ∧
    5 ≤ (reading [0xFA, 0xFB, 0x41, 0x00]).rxbuf.length + 1 ∧
    (reading [0xFA, 0xFB, 0x41, 0x00]).rxbuf.length + 1 =
      (((reading [0xFA, 0xFB, 0x41, 0x00]).rxbuf ++ [0x40]).getD 3 0).toNat + 5 := by decide

theorem witness_LayoutRowsComplete : ([0x01, 0x02] : Bytes).length + 1 = (0x03 : Byte).toNat := rfl

/-- The buffer may hold an older, unfinished frame. -/
theorem witness_CleanFrameIsReceived :
    isFrame (0xFA :: 0xFB :: [0x41, 0x00, 0x40]) = true ∧ hasMarker (0xFB :: [0x41, 0x00, 0x40]) = false ∧
    isFrame ((reading [0xFA, 0xFB, 0x53, 0x05]).rxbuf ++ [0xFA]) = false := by decide

theorem witness_FramingIgnoresHostOperations :
    (∀ i ∈ [Instr.status, .rxByte 0x11], i.isHostOp = true ∨ ∃ b, i = .rxByte b) ∧
    (∀ j ∈ [Instr.rxByte 0x11], j.isHostOp = true ∨ ∃ b, j = .rxByte b) ∧
    [Instr.status, .rxByte 0x11].filter (fun i => !i.isHostOp) =
      [Instr.rxByte 0x11].filter (fun i => !i.isHostOp) ∧
    s0.rxbuf = (dispense .awaitingPoll 0).rxbuf ∧ s0.rxlog = (dispense .awaitingPoll 0).rxlog ∧
    (∃ t, execAll [.status, .rxByte 0x11] s0 = .next t) ∧
    (∃ t, execAll [.rxByte 0x11] (dispense .awaitingPoll 0) = .next t) :=
  ⟨by simp [Instr.isHostOp], by simp [Instr.isHostOp], rfl, rfl, rfl, ⟨_, rfl⟩, ⟨_, rfl⟩⟩

theorem witness_PollWithNothingPending : Routed pollFrame ∧ s0.pend = none := ⟨routed_poll, rfl⟩

theorem witness_PollWhileDataAwaited :
    Routed pollFrame ∧ ∃ x, (dispense .ackReceivedAwaitingData 1).pend = some x ∧
      x.st = .ackReceivedAwaitingData := ⟨routed_poll, _, rfl, rfl⟩

theorem witness_PollTransmitsCommand :
    Routed pollFrame ∧
    (∃ x, (dispense .awaitingPoll 0).pend = some x ∧ (x.st = .awaitingPoll ∨ x.st = .sentAwaitingAck) ∧
      x.retries < 5) ∧
    (∃ x, (dispense .sentAwaitingAck 4).pend = some x ∧ (x.st = .awaitingPoll ∨ x.st = .sentAwaitingAck) ∧
      x.retries < 5) := ⟨routed_poll, ⟨_, rfl, .inl rfl, by decide⟩, ⟨_, rfl, .inr rfl, by decide⟩⟩

theorem witness_PollFailsSpentTransaction :
    Routed pollFrame ∧ ∃ x, (dispense .sentAwaitingAck 5).pend = some x ∧
      (x.st = .awaitingPoll ∨ x.st = .sentAwaitingAck) ∧ 5 ≤ x.retries :=
  ⟨routed_poll, _, rfl, .inr rfl, by decide⟩

theorem witness_AckAwaitsData :
    Routed ackFrame ∧ ∃ x, (dispense .sentAwaitingAck 1).pend = some x ∧ x.st = .sentAwaitingAck ∧
      x.expected = some 0x04 := ⟨routed_ack, _, rfl, rfl, rfl⟩

theorem witness_AckOnlyCompletion :
    Routed ackFrame ∧ ∃ x, (pending 0x12 [] none .sentAwaitingAck 1).pend = some x ∧
      x.st = .sentAwaitingAck ∧ x.expected = none := ⟨routed_ack, _, rfl, rfl, rfl⟩

theorem witness_AckIgnoredOtherwise :
    ∀ x, (dispense .awaitingPoll 0).pend = some x → x.st ≠ .sentAwaitingAck := by
  intro x h; cases h; decide

theorem witness_MatchedDataCompletes :
    (Instr.dataMatched dispenseStatus).wf = true ∧ Routed dispenseStatus ∧
    ∃ x, (dispense .sentAwaitingAck 1).pend = some x ∧ x.expected = some (cmdByte dispenseStatus) :=
  ⟨by decide, routed_dispensing, _, rfl, rfl⟩

theorem witness_UnmatchedDataQueued :
    (Instr.dataUnmatched moneyFrame).wf = true ∧ Routed moneyFrame ∧
    ∀ x, (dispense .sentAwaitingAck 1).pend = some x → x.expected ≠ some (cmdByte moneyFrame) := by
  refine ⟨by decide, routed_money, ?_⟩
  intro x h; cases h; decide

theorem witness_EventQueueDepth :
    parity.evqDepth = none ∧ depthOne.evqDepth = some 1 ∧ hasRoom depthOne s0.evq.length = true ∧
    1 ≤ ({ s0 with evq := [{ code := 0x21, payload := [] }] } : State).evq.length := by decide

theorem witness_DataRowsOutsideTheirCase :
    (∀ x, s0.pend = some x → x.expected ≠ some (cmdByte moneyFrame)) ∧
    ∃ x, (dispense .awaitingPoll 0).pend = some x ∧ x.expected = some (cmdByte dispenseStatus) :=
  ⟨(fun _ h => nomatch h), _, rfl, rfl⟩

theorem witness_CheckPolicyOfCompletedFrame :
    (dropping.checkPolicy = .drop ∧ verify badPoll = false) ∧ parity.checkPolicy = .ignore := by decide

theorem witness_UnroutedFrameWritesNothing : verify badPoll = false := by decide

theorem witness_RouterLaws :
    ¬ ((reading [0xFA, 0xFB, 0x41, 0x00]).rxbuf.getLast? = some 0xFA ∧ (0x40 : Byte) = 0xFB) ∧
    isFrame ((reading [0xFA, 0xFB, 0x41, 0x00]).rxbuf ++ [0x40]) = true ∧
    (∃ t, exec (.rxByte 0x40) (reading [0xFA, 0xFB, 0x41, 0x00]) = .next t) ∧
    Routed ((reading [0xFA, 0xFB, 0x41, 0x00]).rxbuf ++ [0x40]) ∧
    Routed ((reading [0xFA, 0xFB, 0x42, 0x00]).rxbuf ++ [0x43]) ∧
    Routed ((reading [0x00, 0x00, 0x00, 0x00]).rxbuf ++ [0x00]) :=
  ⟨by decide, by decide, ⟨_, rfl⟩, .inl (by decide), .inl (by decide), .inl (by decide)⟩

theorem witness_SequenceSuccessor : (254 : Byte) ≠ 255 ∧ (1 : Byte) ≠ 0 := by decide

theorem witness_RetryBound :
    Routed pollFrame ∧ ∃ x, (dispense .awaitingPoll 0).pend = some x ∧ x.st = .awaitingPoll ∧ x.retries = 0 :=
  ⟨routed_poll, _, rfl, rfl, rfl⟩

theorem witness_RetransmissionCarriesNewSequence :
    Routed pollFrame ∧ Routed moneyFrame ∧ (Instr.dataUnmatched moneyFrame).wf = true ∧
    ∃ x, (dispense .awaitingPoll 0).pend = some x ∧ x.st = .awaitingPoll ∧ x.retries = 0 ∧
      x.expected ≠ some (cmdByte moneyFrame) :=
  ⟨routed_poll, routed_money, by decide, _, rfl, rfl, rfl, by decide⟩

theorem witness_TransmitCommand : (0x53 : Byte) ≠ 0x42 ∧ (List.replicate 254 (0 : Byte)).length ≤ 254 := by decide +kernel

theorem witness_HalfDuplex :
    Instr.isEvent (.rxByte 0x40) = true ∧ (∃ t, exec (.rxByte 0x40) (reading [0xFA, 0xFB, 0x41, 0x00]) = .next t) ∧
    s0.inputs = [] ∧ step s0 = .next s0 := ⟨rfl, ⟨_, rfl⟩, rfl, rfl⟩

/-- At the boundary of `plen`: 255 is refused, 254 is not. -/
theorem witness_SubmitOperation :
    ((List.replicate 255 (0 : Byte)).length = (255 : Byte).toNat ∧ 254 < (255 : Byte).toNat) ∧
    ((List.replicate 254 (0 : Byte)).length = (254 : Byte).toNat ∧ (254 : Byte).toNat ≤ 254 ∧ s0.pend = none) ∧
    (∃ x, ([] : Bytes).length = (0 : Byte).toNat ∧ (0 : Byte).toNat ≤ 254 ∧
      (dispense .sentAwaitingAck 1).pend = some x) :=
  ⟨by decide +kernel, by decide +kernel, _, rfl, by decide, rfl⟩

theorem witness_StatusOperation :
    (∃ x, (dispense .awaitingPoll 0).pend = some x) ∧ s0.pend = none := ⟨⟨_, rfl⟩, rfl⟩

theorem witness_IdleAfterReset :
    (Routed pollFrame ∧ isFrame pollFrame = true) ∧
    (Routed moneyFrame ∧ isFrame moneyFrame = true ∧ isDataCmd (cmdByte moneyFrame) = true) :=
  ⟨⟨routed_poll, by decide⟩, routed_money, by decide, by decide⟩

theorem witness_HostOperationOwnership :
    Instr.isHostOp .drain = true ∧ ∃ t, exec .drain s0 = .next t := ⟨rfl, _, rfl⟩

theorem witness_WireRowOwnership :
    Instr.isHostOp (.poll pollFrame) = false ∧ (∃ t, exec (.poll pollFrame) s0 = .next t) ∧
    (∃ t, exec (.ack ackFrame) s0 = .next t) ∧ (∃ t, exec (.dataMatched dispenseStatus) s0 = .next t) ∧
    (∃ t, exec (.dataUnmatched moneyFrame) s0 = .next t) ∧ ∃ t, exec .txAck s0 = .next t :=
  ⟨rfl, ⟨_, rfl⟩, ⟨_, rfl⟩, ⟨_, rfl⟩, ⟨_, rfl⟩, _, rfl⟩

theorem witness_TracesOnlyGrow : ∃ t, exec .reset { s0 with tx := ackFrame } = .next t := ⟨_, rfl⟩

/-- The small reset state meets the invariants for every value of the open parameters. -/
theorem inv_s0 (p : Params) : Inv p s0 where
  pend_ok := by intro t h; cases h
  seq_pos := by decide
  rxbuf_le := by decide
  rxbuf_short := by decide
  evq_le := fun n _ => Nat.zero_le n
  evq_payload := by intro e h; cases h
  evq_unbounded := fun _ => rfl
  result_ok := by intro r h; cases h
  result_or_pend := .inl rfl

theorem witness_HeldResultSurvivesReception :
    Inv parity { s0 with result := some (.success [0x02]) } ∧
    ({ s0 with result := some (.success [0x02]) } : State).result = some (.success [0x02]) ∧
    ∃ t, exec (.poll pollFrame) { s0 with result := some (.success [0x02]) } = .next t := by
  refine ⟨{ inv_s0 parity with result_ok := ?_, result_or_pend := .inr rfl }, rfl, _, rfl⟩
  intro r h; cases h; exact (by decide : [(0x02 : Byte)].length ≤ maxRxPayload)

/-- A received byte, the standard layout row and the unmatched row itself run the unmatched DATA case. -/
theorem unmatched_money (i : Instr) (s : State) (hp : s.pend = none) (b : s.rxbuf = moneyFrame.dropLast)
    (h : i = .rxByte 0x20 ∨ i = .frameStd 0xFA 0xFB 0x21 0x02 0x07 [0x05] 0x20 ∨ i = .dataUnmatched moneyFrame) :
    UnmatchedAt i s moneyFrame := by
  refine ⟨routed_money, by simp [hp], ?_⟩
  rcases h with rfl | rfl | rfl
  · exact .inr ⟨by decide, .inl ⟨_, rfl, by rw [b]; rfl, by decide, by rw [b]; decide⟩⟩
  · exact .inr ⟨by decide, .inr (.inl ⟨_, _, _, _, _, _, _, rfl, rfl⟩)⟩
  · exact .inl rfl

theorem unmatched_short : UnmatchedAt (.frameShort 0xFA 0xFB 0x21 0x20) s0 [0xFA, 0xFB, 0x21, 0x00, 0x20] :=
  ⟨.inl (by decide), nofun, .inr ⟨by decide, .inr (.inr ⟨_, _, _, _, rfl, rfl⟩)⟩⟩

/-- Each clause: `done` rises by a completion and stands after it, falls by TAKE_RESULT; `ev_pending` rises by an
unmatched DATA frame, stands after its last byte, and falls by DRAIN. -/
theorem witness_LevelOutputs :
    (∃ t, exec (.ack ackFrame) (pending 0x12 [] none .sentAwaitingAck 1) = .next t ∧
      (pending 0x12 [] none .sentAwaitingAck 1).done = false ∧ t.done = true) ∧
    (Instr.ack ackFrame ≠ .reset ∧ ∃ t, exec (.ack ackFrame) (pending 0x12 [] none .sentAwaitingAck 1) = .next t ∧
      (pending 0x12 [] none .sentAwaitingAck 1).busy = true ∧ t.busy = false) ∧
    (∃ t, exec .takeResult { s0 with result := some (.success []) } = .next t ∧
      ({ s0 with result := some (.success []) } : State).done = true ∧ t.done = false) ∧
    (∃ t, exec (.dataUnmatched moneyFrame) (reading moneyFrame.dropLast) = .next t ∧
      (reading moneyFrame.dropLast).evPending = false ∧ t.evPending = true) ∧
    UnmatchedAt (.rxByte 0x20) (reading moneyFrame.dropLast) moneyFrame ∧
    (∃ t, exec .drain { s0 with evq := [{ code := 0x21, payload := [] }] } = .next t ∧
      ({ s0 with evq := [{ code := 0x21, payload := [] }] } : State).evPending = true ∧ t.evPending = false) := by
  refine ⟨⟨_, rfl, rfl, rfl⟩, ⟨nofun, _, rfl, rfl, rfl⟩, ⟨_, rfl, rfl, rfl⟩, ⟨_, rfl, rfl, ?_⟩,
    unmatched_money _ _ rfl rfl (.inl rfl), ⟨_, rfl, rfl, rfl⟩⟩
  rw [whenRouted_yes Config.params moneyFrame _ _ (.inl (by decide))]
  simp [State.evPending, unmatchedCase, onUnmatched, State.queueEvent, hasRoom_zero, reading, s0, State.resetWith,
    State.expects, State.advanceSeq, State.idleAck, State.emitTx]

theorem witness_EventsReturnedOnceInOrder :
    ((∀ b, Instr.drain ≠ .rxByte b) ∧ (∀ f, Instr.drain ≠ .dataUnmatched f) ∧ Instr.drain ≠ .reset ∧
      (∀ f, ¬ UnmatchedAt .drain { s0 with evq := [{ code := 0x21, payload := [] }] } f) ∧ ∃ t, exec .drain { s0 with evq := [{ code := 0x21, payload := [] }] } = .next t) ∧
    (∀ i, i = .rxByte 0x20 ∨ i = .frameStd 0xFA 0xFB 0x21 0x02 0x07 [0x05] 0x20 ∨ i = .dataUnmatched moneyFrame →
      UnmatchedAt i (reading moneyFrame.dropLast) moneyFrame) ∧
    (∃ t, exec (.rxByte 0x20) (reading moneyFrame.dropLast) = .next t) ∧
    ∃ t, exec .reset s0 = .next t :=
  ⟨⟨nofun, nofun, nofun, fun f h => by simp [UnmatchedAt] at h, _, rfl⟩, fun i h => unmatched_money i _ rfl rfl h,
    ⟨_, rfl⟩, _, rfl⟩

theorem witness_StepKeepsInvariants :
    Inv Config.params { s0 with inputs := [[portHost, 0x01]] } ∧
    ∃ t, step { s0 with inputs := [[portHost, 0x01]] } = .next t := ⟨{ inv_s0 Config.params with }, _, rfl⟩

theorem witness_StepKeepsTransmitTraceWhole :
    Inv Config.params { s0 with tx := ackFrame, inputs := [[portHost, 0x01]] } ∧
    ({ s0 with tx := ackFrame, inputs := [[portHost, 0x01]] } : State).TxWhole ∧
    ∃ t, step { s0 with tx := ackFrame, inputs := [[portHost, 0x01]] } = .next t := by
  refine ⟨{ inv_s0 Config.params with }, ⟨[ackFrame], rfl, ?_⟩, _, rfl⟩
  intro f hf; simp only [List.mem_singleton] at hf; subst hf; decide

theorem witness_StepKeepsReceiveTraceTrue :
    ({ s0 with
        rxlog := [{ toDecoded := dec ackFrame, chkOk := true, routed := true }]
        inputs := [[portHost, 0x01]] } : State).RxlogTrue ∧
    ∃ t, step { s0 with
        rxlog := [{ toDecoded := dec ackFrame, chkOk := true, routed := true }]
        inputs := [[portHost, 0x01]] } = .next t := by
  refine ⟨?_, _, rfl⟩
  intro r hr; simp only [List.mem_singleton] at hr; subst hr
  exact ⟨by decide, rfl, by decide, iff_of_true rfl routed_ack⟩

end Sys2Proof.Tests
end

section
/-! PROOFS. The statements of 00_scope.md: what one step takes off the schedule and runs, that it always completes on
input events, and the DATA rows outside their case. -/

namespace Sys2Proof.Machine

/-! ### One step, by what waits (R8, R46) -/

theorem step_of_no_input (s : State) (h : s.inputs = []) : step s = .next s := by
  simp [step, fetchInput_nil s h]

theorem step_of_decode_error (s : State) (r : Bytes) (rest : List Bytes) (e : DecodeError)
    (h : s.inputs = r :: rest) (hd : decode r = .error e) : step s = .refused (.malformedInput e) := by
  simp [step, fetchInput_cons s r rest h, hd]

theorem step_of_decode_ok (s : State) (r : Bytes) (rest : List Bytes) (i : Instr)
    (h : s.inputs = r :: rest) (hd : decode r = .ok i) : step s = exec i { s with inputs := rest } := by
  simp [step, fetchInput_cons s r rest h, hd]

/-! ### No row touches the schedule

The schedule is the model's own field (entry 1): only `step` takes a record off it. -/

@[simp] theorem onPoll_inputs (s : State) : (onPoll s).inputs = s.inputs := by
  rcases onPoll_cases s with ⟨-, e⟩ | ⟨_, -, -, e⟩ | ⟨_, -, -, -, e⟩ | ⟨_, -, -, -, e⟩ <;> rw [e] <;> rfl

@[simp] theorem onAck_inputs (s : State) : (onAck s).inputs = s.inputs := by
  rcases onAck_cases s with ⟨-, e⟩ | ⟨_, _, -, -, -, e⟩ | ⟨_, -, -, -, e⟩ <;> rw [e] <;> rfl

@[simp] theorem onMatched_inputs (payload : Bytes) (s : State) : (onMatched payload s).inputs = s.inputs := rfl

@[simp] theorem onUnmatched_inputs (p : Params) (c : Byte) (payload : Bytes) (s : State) :
    (onUnmatched p c payload s).inputs = s.inputs := by
  rcases onUnmatched_cases p c payload s with ⟨-, e⟩ | ⟨-, e⟩ <;> rw [e]

/-! ### The DATA rows, inside and outside their case (R15, R87) -/

theorem matchedCase_of_expects (d : Decoded) (s : State) (h : s.expects d.cmd = true) :
    matchedCase d s = onMatched d.payload s := if_pos h

theorem matchedCase_of_not_expects (d : Decoded) (s : State) (h : s.expects d.cmd = false) :
    matchedCase d s = s := by simp [matchedCase, h]

theorem unmatchedCase_of_expects (p : Params) (d : Decoded) (s : State) (h : s.expects d.cmd = true) :
    unmatchedCase p d s = s := if_pos h

theorem unmatchedCase_of_not_expects (p : Params) (d : Decoded) (s : State) (h : s.expects d.cmd = false) :
    unmatchedCase p d s = onUnmatched p d.cmd d.payload s := by simp [unmatchedCase, h]

@[simp] theorem matchedCase_inputs (d : Decoded) (s : State) : (matchedCase d s).inputs = s.inputs := by
  cases h : s.expects d.cmd with
  | true => rw [matchedCase_of_expects d s h, onMatched_inputs]
  | false => rw [matchedCase_of_not_expects d s h]

@[simp] theorem unmatchedCase_inputs (p : Params) (d : Decoded) (s : State) :
    (unmatchedCase p d s).inputs = s.inputs := by
  cases h : s.expects d.cmd with
  | true => rw [unmatchedCase_of_expects p d s h]
  | false => rw [unmatchedCase_of_not_expects p d s h, onUnmatched_inputs]

/-- An action that does nothing does nothing behind the router's entry test either. -/
theorem whenRouted_of_eq_self (p : Params) (f : Bytes) (g : State → State) (s : State) (h : g s = s) :
    whenRouted p f g s = s := by
  rcases whenRouted_cases p f g s with ⟨-, e⟩ | ⟨-, e⟩
  · rw [e, h]
  · exact e

theorem whenRouted_inputs (p : Params) (f : Bytes) (g : State → State) (s : State)
    (h : (g s).inputs = s.inputs) : (whenRouted p f g s).inputs = s.inputs := by
  rcases whenRouted_cases p f g s with ⟨-, e⟩ | ⟨-, e⟩
  · rw [e, h]
  · rw [e]

/-! ### Every row completes and keeps the schedule (R107) -/

@[simp] theorem receive_inputs (p : Params) (b : Byte) (s : State) : (receive p b s).inputs = s.inputs := by
  rcases receive_cases p b s with ⟨-, -, e⟩ | ⟨-, -, e⟩ | ⟨-, -, e⟩ <;> rw [e] <;> simp

@[simp] theorem submitOp_inputs (p : Params) (code : Byte) (expected : Option Byte) (plen : Byte) (payload : Bytes)
    (s : State) : (submitOp p code expected plen payload s).inputs = s.inputs := by
  rcases submitOp_cases p code expected plen payload s with ⟨-, e⟩ | ⟨-, -, e⟩ | ⟨-, -, e⟩ <;> rw [e] <;> simp

/-- `exec_next` with the schedule's frame: every row has a next state, with the same records still waiting. -/
theorem exec_next_inputs (i : Instr) (s : State) : ∃ t, exec i s = .next t ∧ t.inputs = s.inputs := by
  cases i with
  | rxByte b => exact ⟨_, exec_rxByte b s, receive_inputs _ b s⟩
  | frameStd m0 m1 cmd len seqno payload chk =>
    exact ⟨_, exec_frameStd m0 m1 cmd len seqno payload chk s, completeFrame_inputs _ _ s⟩
  | frameShort m0 m1 cmd chk => exact ⟨_, exec_frameShort m0 m1 cmd chk s, completeFrame_inputs _ _ s⟩
  | poll f => exact ⟨_, exec_poll f s, whenRouted_inputs _ f _ s (onPoll_inputs s)⟩
  | ack f => exact ⟨_, exec_ack f s, whenRouted_inputs _ f _ s (onAck_inputs s)⟩
  | dataMatched f => exact ⟨_, exec_dataMatched f s, whenRouted_inputs _ f _ s (matchedCase_inputs _ s)⟩
  | dataUnmatched f => exact ⟨_, exec_dataUnmatched f s, whenRouted_inputs _ f _ s (unmatchedCase_inputs _ _ s)⟩
  | txAck => exact ⟨_, exec_txAck s, rfl⟩
  | txCmd code seq payload => exact ⟨_, exec_txCmd code seq payload s, State.emitTx_inputs s _⟩
  | submit code expValid exp plen payload =>
    exact ⟨_, exec_submit code expValid exp plen payload s, submitOp_inputs _ code _ plen payload s⟩
  | takeResult => exact ⟨_, exec_takeResult s, rfl⟩
  | status => exact ⟨_, exec_status s, State.giveBack_inputs s _⟩
  | drain => exact ⟨_, exec_drain s, rfl⟩
  | reservedOp low operands => exact ⟨_, exec_reservedOp low operands s, State.refuse_inputs s _⟩
  | reset => exact ⟨_, exec_reset s, resetOp_inputs s _⟩

/-- A legal schedule stays legal when its next event is taken. -/
theorem State.LegalSchedule.of_inputs_tail {s t : State} (hs : s.LegalSchedule) (h : t.inputs = s.inputs.tail) :
    t.LegalSchedule := fun r hr => hs r (List.mem_of_mem_tail (h ▸ hr))

/-- A step on a legal schedule completes and leaves the rest of it waiting. -/
theorem step_next_of_legalSchedule (s : State) (hs : s.LegalSchedule) :
    ∃ t, step s = .next t ∧ t.inputs = s.inputs.tail := by
  cases h : s.inputs with
  | nil => exact ⟨s, step_of_no_input s h, h⟩
  | cons r rest =>
    obtain ⟨i, hd, -⟩ := hs r (by simp [h])
    obtain ⟨t, ht, hin⟩ := exec_next_inputs i { s with inputs := rest }
    exact ⟨t, (step_of_decode_ok s r rest i h hd).trans ht, hin⟩

/-! ### The statements -/

/-- Settles O12: every waiting record decodes, every row completes, and no row touches the schedule. -/
theorem legalStepCompletes : Obligations.LegalStepCompletes := by
  intro s hs
  obtain ⟨t, ht, hin⟩ := step_next_of_legalSchedule s hs
  exact ⟨t, ht, hin, hs.of_inputs_tail hin⟩

/-- Settles O10; the step runs any instruction the record decodes to, well-formed or not. -/
theorem stepRunsDecodedInstruction : Obligations.StepRunsDecodedInstruction :=
  fun s r rest i h hd _ => step_of_decode_ok s r rest i h hd

/-- Settles O11. -/
theorem stepWithoutInstruction : Obligations.StepWithoutInstruction :=
  ⟨step_of_no_input, step_of_decode_error⟩

/-- Settles O30: whether the pending transaction expects the frame's code decides both rows. -/
theorem dataRowsOutsideTheirCase : Obligations.DataRowsOutsideTheirCase := by
  constructor
  · intro f s hpend
    have hx : s.expects (dec f).cmd = false := by rw [dec_cmd]; exact (expects_eq_false_iff s _).mpr hpend
    rw [exec_dataMatched, whenRouted_of_eq_self _ f _ s (matchedCase_of_not_expects (dec f) s hx)]
  · intro f s x hpend hexp
    have hx : s.expects (dec f).cmd = true := by rw [dec_cmd]; exact (expects_iff s _).mpr ⟨x, hpend, hexp⟩
    rw [exec_dataUnmatched, whenRouted_of_eq_self _ f _ s (unmatchedCase_of_expects _ (dec f) s hx)]

end Sys2Proof.Machine
end

section
/-! SUPPORT. Every record that decodes stands for a well-formed instruction, and a property that every row keeps is
kept by every step. -/

namespace Sys2Proof.Machine

/-! ### What a decoded record stands for is well-formed, port by port (R65, R66) -/

theorem wf_of_decodeReceive (body : Bytes) (i : Instr) (h : decodeReceive body = .ok i) : i.wf = true := by
  unfold decodeReceive at h
  split at h
  · cases h; rfl
  · cases h

theorem wf_of_decodeReset (body : Bytes) (i : Instr) (h : decodeReset body = .ok i) : i.wf = true := by
  unfold decodeReset at h
  split at h
  · split at h
    · cases h; rfl
    · cases h
  · cases h

theorem wf_of_decodeSubmit (args : Bytes) (i : Instr) (h : decodeSubmit args = .ok i) : i.wf = true := by
  unfold decodeSubmit at h
  split at h
  · next code ev exp plen payload =>
    split_ifs at h with hl
    · cases h; exact decide_eq_true hl
    · cases h; exact decide_eq_true hl
  · cases h

theorem wf_of_decodeBare (i j : Instr) (args : Bytes) (hi : i.wf = true) (h : decodeBare i args = .ok j) :
    j.wf = true := by
  obtain ⟨-, rfl⟩ := (decodeBare_ok i j args).mp h
  exact hi

theorem wf_of_decodeHost (body : Bytes) (i : Instr) (h : decodeHost body = .ok i) : i.wf = true := by
  unfold decodeHost at h
  split at h
  · cases h
  · next op args =>
    split_ifs at h
    · exact wf_of_decodeSubmit args i h
    · exact wf_of_decodeBare .takeResult i args rfl h
    · exact wf_of_decodeBare .status i args rfl h
    · exact wf_of_decodeBare .drain i args rfl h
    · cases h; rfl

theorem wf_of_decodeFrame (f : Bytes) (i : Instr) (h : decodeFrame f = .ok i) : i.wf = true := by
  unfold decodeFrame at h
  split at h
  · next hf =>
    split at h
    · next m0 m1 cmd len x rest =>
      split at h
      · cases h; rfl
      · next hlen =>
        cases h
        obtain ⟨-, htotal⟩ := (isFrame_iff _).mp hf
        have hpos : len.toNat ≠ 0 := fun h0 => hlen (BitVec.eq_of_toNat_eq h0)
        simp only [frameTotal, lenByte_cons4, List.length_cons] at htotal
        refine decide_eq_true ?_
        rw [List.length_dropLast]
        omega
    · cases h
  · cases h

theorem wf_of_decodeRouter (f : Bytes) (i : Instr) (h : decodeRouter f = .ok i) : i.wf = true := by
  unfold decodeRouter at h
  split_ifs at h with hf hpoll hack
  · cases h; simp [Instr.wf, hf, hpoll]
  · cases h; simp [Instr.wf, hf, hack]

theorem wf_of_decodeData (row : Bytes → Instr) (f : Bytes) (i : Instr)
    (hrow : isFrame f = true → isDataCmd (cmdByte f) = true → (row f).wf = true)
    (h : decodeData row f = .ok i) : i.wf = true := by
  unfold decodeData at h
  split_ifs at h with hf hdata
  cases h
  exact hrow hf hdata

theorem wf_of_decodeTransmit (f : Bytes) (i : Instr) (h : decodeTransmit f = .ok i) : i.wf = true := by
  unfold decodeTransmit at h
  split at h
  · cases h; rfl
  · split at h
    · split_ifs at h with henc hwf
      cases h
      exact hwf
    · cases h

/-- No record decodes to an ill-formed instruction (R65). -/
theorem wf_of_decode (r : Bytes) (i : Instr) (h : decode r = .ok i) : i.wf = true := by
  cases r with
  | nil => cases h
  | cons port body =>
    rcases port_of_decode port body i h with rfl | rfl | rfl | rfl | rfl | rfl | rfl | rfl
    · exact wf_of_decodeReceive body i h
    · exact wf_of_decodeReset body i h
    · exact wf_of_decodeHost body i h
    · exact wf_of_decodeFrame body i h
    · exact wf_of_decodeRouter body i h
    · exact wf_of_decodeData .dataMatched body i (fun hf hc => by simp [Instr.wf, hf, hc]) h
    · exact wf_of_decodeData .dataUnmatched body i (fun hf hc => by simp [Instr.wf, hf, hc]) h
    · exact wf_of_decodeTransmit body i h

/-! ### From the rows to the steps (R7, R46) -/

/-- A property that does not speak of the schedule and that every well-formed row keeps is kept by every step. -/
theorem step_keeps {P : State → Prop} (hinputs : ∀ s rest, P s → P { s with inputs := rest })
    (hexec : ∀ i s t, i.wf = true → P s → exec i s = .next t → P t)
    {s t : State} (hs : P s) (h : step s = .next t) : P t := by
  rcases step_cases s with ⟨-, e⟩ | ⟨r, rest, err, -, -, e⟩ | ⟨r, rest, i, -, hd, e⟩ <;> rw [e] at h
  · cases h; exact hs
  · cases h
  · exact hexec i _ t (wf_of_decode r i hd) (hinputs s rest hs) h

end Sys2Proof.Machine
end

section
/-! SUPPORT. What one row can make of the state, said once: `RouterStep` for the router's cases (42_dispatch_router.md),
`WireStep` for every row that is not a host operation, `hostOp_frame` for the host operations. -/

namespace Sys2Proof.Machine

/-! ### The router -/

/-- What the router can make of a state: one constructor for each outcome of R88 to R96, and `unchanged` also for a
frame that is not routed (R86) and for a DATA row outside its case (R15). It is a bound from above: of each case's
condition it keeps what an invariant needs; the exact conditions are in `onPoll_cases`, `onAck_cases` and
`route_cases`. -/
inductive RouterStep (p : Params) (s : State) : State → Prop where
  | unchanged : RouterStep p s s
  | acked : RouterStep p s (ackedState s)
  | sent (x : Pending) (hpend : s.pend = some x) (hretries : x.retries < maxRetries) :
      RouterStep p s (sentState x s)
  | spent : RouterStep p s (spentState s)
  | awaiting (x : Pending) (c : Byte) (hpend : s.pend = some x) (hexp : x.expected = some c) :
      RouterStep p s (awaitingState x s)
  | ackOnly : RouterStep p s (ackOnlyState s)
  | matched (payload : Bytes) (hlen : payload.length ≤ maxRxPayload) : RouterStep p s (matchedState payload s)
  | unmatched (c : Byte) (payload : Bytes) (hlen : payload.length ≤ maxRxPayload) :
      RouterStep p s (onUnmatched p c payload s)

theorem routerStep_onPoll (p : Params) (s : State) : RouterStep p s (onPoll s) := by
  rcases onPoll_cases s with ⟨-, e⟩ | ⟨_, -, -, e⟩ | ⟨x, hpend, -, hr, e⟩ | ⟨_, -, -, -, e⟩ <;> rw [e]
  · exact .acked
  · exact .acked
  · exact .sent x hpend hr
  · exact .spent

theorem routerStep_onAck (p : Params) (s : State) : RouterStep p s (onAck s) := by
  rcases onAck_cases s with ⟨-, e⟩ | ⟨x, c, hpend, -, hexp, e⟩ | ⟨_, -, -, -, e⟩ <;> rw [e]
  · exact .unchanged
  · exact .awaiting x c hpend hexp
  · exact .ackOnly

theorem routerStep_matchedCase (p : Params) (f : Bytes) (s : State) : RouterStep p s (matchedCase (dec f) s) := by
  cases h : s.expects (dec f).cmd with
  | true => rw [matchedCase_of_expects _ s h]; exact .matched _ (dec_payload_length f)
  | false => rw [matchedCase_of_not_expects _ s h]; exact .unchanged

theorem routerStep_unmatchedCase (p : Params) (f : Bytes) (s : State) :
    RouterStep p s (unmatchedCase p (dec f) s) := by
  cases h : s.expects (dec f).cmd with
  | true => rw [unmatchedCase_of_expects p _ s h]; exact .unchanged
  | false => rw [unmatchedCase_of_not_expects p _ s h]; exact .unmatched _ _ (dec_payload_length f)

/-- What an action and its absence both give holds behind the router's entry test (R86). -/
theorem whenRouted_holds (Q : State → Prop) (p : Params) (f : Bytes) (action : State → State) (s : State)
    (haction : Q (action s)) (hs : Q s) : Q (whenRouted p f action s) := by
  rcases whenRouted_cases p f action s with ⟨-, e⟩ | ⟨-, e⟩ <;> rw [e]
  · exact haction
  · exact hs

theorem routerStep_whenRouted (p : Params) (f : Bytes) (g : State → State) (s : State) (h : RouterStep p s (g s)) :
    RouterStep p s (whenRouted p f g s) :=
  whenRouted_holds (RouterStep p s) p f g s h .unchanged

theorem routerStep_route (p : Params) (f : Bytes) (s : State) : RouterStep p s (route p f s) := by
  rcases route_cases p f s with ⟨-, e⟩ | ⟨-, -, e⟩ | ⟨-, -, e⟩ | ⟨-, -, -, e⟩ | ⟨-, -, -, e⟩ <;> rw [e]
  · exact .unchanged
  · exact routerStep_onPoll p s
  · exact routerStep_onAck p s
  · exact .matched _ (dec_payload_length f)
  · exact .unmatched _ _ (dec_payload_length f)

/-- Each router row is an outcome of the router (R86). -/
theorem exec_routerStep (i : Instr) (f : Bytes) (s t : State)
    (hi : i = .poll f ∨ i = .ack f ∨ i = .dataMatched f ∨ i = .dataUnmatched f) (he : exec i s = .next t) :
    RouterStep Config.params s t := by
  rcases hi with rfl | rfl | rfl | rfl <;> cases he
  · exact routerStep_whenRouted _ f _ s (routerStep_onPoll _ s)
  · exact routerStep_whenRouted _ f _ s (routerStep_onAck _ s)
  · exact routerStep_whenRouted _ f _ s (routerStep_matchedCase _ f s)
  · exact routerStep_whenRouted _ f _ s (routerStep_unmatchedCase _ f s)

/-- The unmatched case writes `tx`, the events and `seq` only (R95). -/
theorem onUnmatched_frame (p : Params) (c : Byte) (payload : Bytes) (s : State) :
    onUnmatched p c payload s =
      { s with
        tx := s.tx ++ ackFrame
        evq := (onUnmatched p c payload s).evq
        evqOvf := (onUnmatched p c payload s).evqOvf
        seq := adv s.seq } := by
  rcases onUnmatched_cases p c payload s with ⟨-, e⟩ | ⟨-, e⟩ <;> rw [e]

/-- The router writes none of the reader's and the host port's fields (R36). -/
theorem RouterStep.frame {p : Params} {s u : State} (h : RouterStep p s u) :
    u.rxbuf = s.rxbuf ∧ u.rxlog = s.rxlog ∧ u.hostlog = s.hostlog ∧ u.inputs = s.inputs := by
  cases h with
  | unmatched c payload => rw [onUnmatched_frame]; exact ⟨rfl, rfl, rfl, rfl⟩
  | unchanged | acked | sent | spent | awaiting | ackOnly | matched => exact ⟨rfl, rfl, rfl, rfl⟩

/-- The router transmits nothing or one encoded frame: an ACK frame, or the pending command (R88 to R95, R98). -/
theorem RouterStep.tx {p : Params} {s u : State} (h : RouterStep p s u) :
    u.tx = s.tx ∨ u.tx = s.tx ++ ackFrame ∨ ∃ x, s.pend = some x ∧ u.tx = s.tx ++ enc x.code s.seq x.payload := by
  cases h with
  | unchanged | awaiting | ackOnly => exact .inl rfl
  | sent x hpend => exact .inr (.inr ⟨x, hpend, rfl⟩)
  | acked | spent | matched => exact .inr (.inl rfl)
  | unmatched c payload => rw [onUnmatched_frame]; exact .inr (.inl rfl)

/-! ### The rows on the wire side -/

/-- What a row other than a host operation can make of a state; what a constructor promises of the row's operands
holds of well-formed ones. -/
inductive WireStep (i : Instr) (s : State) : State → Prop where
  /-- R79: the buffer is resynchronized. -/
  | resynced : WireStep i s (s.setRxbuf marker)
  /-- R80: the byte is kept, the frame unfinished. -/
  | kept (b : Byte) (hunfinished : isFrame (s.rxbuf ++ [b]) = false) : WireStep i s (s.setRxbuf (s.rxbuf ++ [b]))
  /-- R81: a frame is completed. -/
  | completed (f : Bytes) (hframe : i.wf = true → isFrame f = true) : WireStep i s (completeFrame Config.params f s)
  /-- R86: a completed frame is at the router. -/
  | routed (u : State) (hrouter : RouterStep Config.params s u) : WireStep i s u
  /-- R71, R72: a frame is handed to the transport. -/
  | transmitted (code seq : Byte) (payload : Bytes) (hlen : i.wf = true → payload.length ≤ maxTxPayload) :
      WireStep i s (s.emitTx (enc code seq payload))
  /-- R121: RESET. -/
  | resetTo : WireStep i s (resetOp Config.params s)

theorem wireStep_receive (i : Instr) (b : Byte) (s : State) : WireStep i s (receive Config.params b s) := by
  rcases receive_cases Config.params b s with ⟨-, -, e⟩ | ⟨-, hf, e⟩ | ⟨-, hf, e⟩ <;> rw [e]
  · exact .resynced
  · exact .completed _ fun _ => hf
  · exact .kept b hf

/-- All that a row other than a host operation can do. -/
theorem exec_wireStep (i : Instr) (s t : State) (hi : i.isHostOp = false) (h : exec i s = .next t) :
    WireStep i s t := by
  cases i with
  | rxByte b => cases h; exact wireStep_receive _ b s
  | frameStd m0 m1 cmd len seqno payload chk =>
    cases h
    exact .completed _ fun hwf => isFrame_stdFrame m0 m1 cmd len seqno payload chk (of_decide_eq_true hwf)
  | frameShort m0 m1 cmd chk => cases h; exact .completed _ fun _ => isFrame_shortFrame m0 m1 cmd chk
  | poll f => exact .routed t (exec_routerStep _ f s t (.inl rfl) h)
  | ack f => exact .routed t (exec_routerStep _ f s t (.inr (.inl rfl)) h)
  | dataMatched f => exact .routed t (exec_routerStep _ f s t (.inr (.inr (.inl rfl))) h)
  | dataUnmatched f => exact .routed t (exec_routerStep _ f s t (.inr (.inr (.inr rfl))) h)
  | txAck => cases h; exact .routed _ .acked
  | txCmd code seq payload =>
    cases h
    refine .transmitted code seq payload fun hwf => ?_
    simp only [Instr.wf, Bool.and_eq_true, decide_eq_true_eq] at hwf
    exact hwf.2
  | reset => cases h; exact .resetTo
  | submit | takeResult | status | drain | reservedOp => cases hi

/-- A wire-side row logs nothing, or the one frame that it completes (R31, R78). -/
theorem WireStep.rxlog {i : Instr} {s t : State} (h : WireStep i s t) :
    t.rxlog = s.rxlog ∨
    ∃ f, t.rxlog = s.rxlog ++ [frameRec Config.params f] ∧ (i.wf = true → isFrame f = true) := by
  cases h with
  | resynced | kept | transmitted | resetTo => exact .inl rfl
  | completed f hframe => exact .inr ⟨f, completeFrame_rxlog _ f s, hframe⟩
  | routed _ hrouter => obtain ⟨-, hlog, -, -⟩ := hrouter.frame; exact .inl hlog

/-- A wire-side row gives no value back to a host and delivers no input (R36; entries 1, 5 and 15). -/
theorem WireStep.host_frame {i : Instr} {s t : State} (h : WireStep i s t) :
    t.hostlog = s.hostlog ∧ t.inputs = s.inputs := by
  cases h with
  | resynced | kept | transmitted | resetTo => exact ⟨rfl, rfl⟩
  | completed f => exact ⟨completeFrame_hostlog _ f s, completeFrame_inputs _ f s⟩
  | routed _ hrouter => obtain ⟨-, -, hhost, hin⟩ := hrouter.frame; exact ⟨hhost, hin⟩

/-- A wire-side row transmits nothing or one encoded frame (R30). -/
theorem WireStep.tx {i : Instr} {s t : State} (h : WireStep i s t) :
    t.tx = s.tx ∨
    t.tx = s.tx ++ ackFrame ∨
    (∃ x, s.pend = some x ∧ t.tx = s.tx ++ enc x.code s.seq x.payload) ∨
    ∃ code seq payload, t.tx = s.tx ++ enc code seq payload ∧ (i.wf = true → payload.length ≤ maxTxPayload) := by
  cases h with
  | resynced | kept | resetTo => exact .inl rfl
  | completed f =>
    rw [completeFrame_tx]
    exact (routerStep_route Config.params f (s.setRxbuf [])).tx.imp_right (.imp_right .inl)
  | routed _ hrouter => exact hrouter.tx.imp_right (.imp_right .inl)
  | transmitted code seq payload hlen => exact .inr (.inr (.inr ⟨code, seq, payload, rfl, hlen⟩))

/-! ### The host operations -/

/-- A host operation writes none of the wire side's fields and gives back one value (R14, R36). -/
theorem hostOp_frame (i : Instr) (s t : State) (hi : i.isHostOp = true) (h : exec i s = .next t) :
    t.rxbuf = s.rxbuf ∧ t.tx = s.tx ∧ t.rxlog = s.rxlog ∧ t.seq = s.seq ∧ t.inputs = s.inputs ∧
    ∃ v, t.hostlog = s.hostlog ++ [v] := by
  cases i with
  | submit code ev exp plen payload =>
    cases h
    rcases submitOp_cases Config.params code (expectedOf ev exp) plen payload s with ⟨-, e⟩ | ⟨-, -, e⟩ | ⟨-, -, e⟩ <;>
      rw [e] <;> exact ⟨rfl, rfl, rfl, rfl, rfl, _, rfl⟩
  | takeResult | status | drain | reservedOp => cases h; exact ⟨rfl, rfl, rfl, rfl, rfl, _, rfl⟩
  | rxByte | frameStd | frameShort | poll | ack | dataMatched | dataUnmatched | txAck | txCmd | reset => cases hi

end Sys2Proof.Machine
end

section
/-! PROOFS. The event queue's depth (R27, R28), and every step keeps the invariants of R32. -/

namespace Sys2Proof.Machine

/-! ### The event queue and its depth (R27, R28) -/

theorem evqDepth_pos (p : Params) (d : Nat) (h : p.evqDepth = some d) : 1 ≤ d := by
  obtain ⟨n, -, rfl⟩ := Option.map_eq_some_iff.mp h
  exact Nat.le_add_left 1 n

theorem hasRoom_of_unbounded (p : Params) (n : Nat) (h : p.evqDepth = none) : hasRoom p n = true :=
  (hasRoom_iff p n).mpr fun d hd => by rw [h] at hd; cases hd

theorem hasRoom_bounded_iff (p : Params) (d n : Nat) (h : p.evqDepth = some d) : hasRoom p n = true ↔ n < d := by
  simp [hasRoom_iff, h]

theorem queueEvent_of_room (p : Params) (e : Event) (s : State) (h : hasRoom p s.evq.length = true) :
    State.queueEvent p e s = { s with evq := s.evq ++ [e] } := if_pos h

theorem queueEvent_of_full (p : Params) (d : Nat) (e : Event) (s : State) (hd : p.evqDepth = some d)
    (hfull : d ≤ s.evq.length) : State.queueEvent p e s = { s with evqOvf := true } :=
  if_neg fun hroom => Nat.not_lt.mpr hfull ((hasRoom_bounded_iff p d _ hd).mp hroom)

/-- Settles O29: a bounded `EVQ_DEPTH` is held as a predecessor, so it is positive; `queueEvent` asks `hasRoom`. -/
theorem eventQueueDepth : Obligations.EventQueueDepth :=
  ⟨hasRoom_of_unbounded, fun p d n h => ⟨evqDepth_pos p d h, hasRoom_bounded_iff p d n h⟩, queueEvent_of_room,
    queueEvent_of_full⟩

/-! ### The pending record's bounds (R22 to R24, R91) -/

theorem newPending_ok (code : Byte) (expected : Option Byte) (payload : Bytes) (h : payload.length ≤ maxTxPayload) :
    (newPending code expected payload).Ok :=
  { payload_le := h
    retries_le := Nat.zero_le _
    unsent := fun _ => rfl
    awaits_code := nofun }

/-- Counting a transmission keeps the bounds while retries remain (R90). -/
theorem Pending.Ok.sent {x : Pending} (h : x.Ok) (hr : x.retries < maxRetries) :
    ({ x with st := .sentAwaitingAck, retries := x.retries + 1 } : Pending).Ok :=
  { payload_le := h.payload_le
    retries_le := hr
    unsent := nofun
    awaits_code := nofun }

/-- Only a transaction that expects a code awaits data (R32 (e), R92). -/
theorem Pending.Ok.awaiting {x : Pending} {c : Byte} (h : x.Ok) (hexp : x.expected = some c) :
    ({ x with st := .ackReceivedAwaitingData } : Pending).Ok :=
  { payload_le := h.payload_le
    retries_le := h.retries_le
    unsent := nofun
    awaits_code := fun _ hnone => by rw [hexp] at hnone; cases hnone }

/-! ### The updates that keep the invariants -/

section
variable {p : Params} {s : State}

/-- The schedule is in no clause. -/
theorem Inv.inputs (h : Inv p s) (rest : List Bytes) : Inv p { s with inputs := rest } := { h with }

theorem Inv.giveBack (h : Inv p s) (v : HostReturn) : Inv p (s.giveBack v) := { h with }

theorem Inv.logRx (h : Inv p s) (r : FrameRec) : Inv p (s.logRx r) := { h with }

theorem Inv.emitTx (h : Inv p s) (f : Bytes) : Inv p (s.emitTx f) := { h with }

/-- R116: while a transaction is pending no result is held. -/
theorem Inv.result_of_pend (h : Inv p s) {x : Pending} (hpend : s.pend = some x) : s.result = none := by
  rcases h.result_or_pend with hr | hp
  · exact hr
  · rw [hp] at hpend; cases hpend

theorem Inv.clearResult (h : Inv p s) : Inv p s.clearResult :=
  { h with result_ok := nofun, result_or_pend := .inl rfl }

theorem Inv.clearEvents (h : Inv p s) : Inv p s.clearEvents :=
  { h with
    evq_le := fun n _ => Nat.zero_le n
    evq_payload := nofun
    evq_unbounded := fun _ => rfl }

theorem Inv.setRxbuf (h : Inv p s) (buf : Bytes) (hle : buf.length ≤ rxbufCap)
    (hshort : minFrame ≤ buf.length → buf.length < frameTotal buf) : Inv p (s.setRxbuf buf) :=
  { h with rxbuf_le := hle, rxbuf_short := hshort }

theorem Inv.setRxbuf_nil (h : Inv p s) : Inv p (s.setRxbuf []) := h.setRxbuf [] (by decide) (by decide)

theorem Inv.setPend (h : Inv p s) {x : Pending} (hx : x.Ok) (hr : s.result = none) : Inv p (s.setPend x) :=
  { h with pend_ok := fun _ hy => by cases hy; exact hx, result_or_pend := .inl hr }

/-- The end of a transaction leaves a result and no pending record (R115, R116). -/
theorem Inv.finish (h : Inv p s) {r : TxnResult} (hr : r.Ok) : Inv p (s.finish r) :=
  { h with
    pend_ok := nofun
    result_ok := fun _ hy => by cases hy; exact hr
    result_or_pend := .inr rfl }

/-- The successor of a sequence number is never 0 (R97). -/
theorem Inv.advanceSeq (h : Inv p s) : Inv p s.advanceSeq := { h with seq_pos := adv_ne_zero s.seq }

/-- With room the queue stays within its depth; without, it is bounded, so the flag may be set (R27, R28, R95). -/
theorem Inv.queueEvent (h : Inv p s) (e : Event) (hlen : e.payload.length ≤ maxRxPayload) :
    Inv p (State.queueEvent p e s) := by
  rcases queueEvent_cases p e s with ⟨hroom, eq⟩ | ⟨hfull, eq⟩ <;> rw [eq]
  · refine { h with evq_le := fun n hn => ?_, evq_payload := fun x hx => ?_ }
    · rw [List.length_append]
      exact (hasRoom_iff p _).mp hroom n hn
    · rcases List.mem_append.mp hx with hold | hnew
      · exact h.evq_payload x hold
      · rw [List.mem_singleton.mp hnew]; exact hlen
  · refine { h with evq_unbounded := fun hnone => ?_ }
    rw [hasRoom_of_unbounded p _ hnone] at hfull
    cases hfull

/-- One more byte that leaves the frame unfinished keeps the buffer short of the total it declares (R32 (d), R84). -/
theorem Inv.keepByte (h : Inv p s) (b : Byte) (hf : isFrame (s.rxbuf ++ [b]) = false) :
    Inv p (s.setRxbuf (s.rxbuf ++ [b])) := by
  have hlength : (s.rxbuf ++ [b]).length = s.rxbuf.length + 1 := by simp
  have hshort : 5 ≤ (s.rxbuf ++ [b]).length → (s.rxbuf ++ [b]).length < frameTotal (s.rxbuf ++ [b]) := by
    intro hmin
    have hne : (s.rxbuf ++ [b]).length ≠ frameTotal (s.rxbuf ++ [b]) := fun heq => by
      rw [(isFrame_iff _).mpr ⟨hmin, heq⟩] at hf; cases hf
    have hle : (s.rxbuf ++ [b]).length ≤ frameTotal (s.rxbuf ++ [b]) := by
      by_cases hold : 5 ≤ s.rxbuf.length
      · rw [frameTotal_append s.rxbuf [b] (by omega), hlength]
        exact h.rxbuf_short hold
      · have : 5 ≤ frameTotal (s.rxbuf ++ [b]) := by simp only [frameTotal]; omega
        omega
    omega
  refine h.setRxbuf _ ?_ hshort
  have htotal : frameTotal (s.rxbuf ++ [b]) ≤ 260 := frameTotal_le _
  show (s.rxbuf ++ [b]).length ≤ 260
  omega

/-- No outcome of the router breaks an invariant. -/
theorem RouterStep.inv {u : State} (hstep : RouterStep p s u) (h : Inv p s) : Inv p u := by
  cases hstep with
  | unchanged => exact h
  | acked => exact h.emitTx _
  | sent x hpend hr =>
    exact (h.emitTx (enc x.code s.seq x.payload)).setPend ((h.pend_ok x hpend).sent hr) (h.result_of_pend hpend)
  | spent => exact (h.emitTx ackFrame).finish (r := .failed .maxRetriesExceeded) trivial
  | awaiting x c hpend hexp => exact h.setPend ((h.pend_ok x hpend).awaiting hexp) (h.result_of_pend hpend)
  | ackOnly => exact (h.finish (r := .success []) (Nat.zero_le _)).advanceSeq
  | matched payload hlen => exact (h.emitTx ackFrame).finish (r := .success payload) hlen
  | unmatched c payload hlen => exact ((h.emitTx ackFrame).queueEvent { code := c, payload := payload } hlen).advanceSeq

theorem Inv.completeFrame (h : Inv p s) (f : Bytes) : Inv p (completeFrame p f s) :=
  ((routerStep_route p f _).inv h.setRxbuf_nil).logRx _

/-- The reset values meet the invariants, whatever the traces hold (R33, R121). -/
theorem inv_resetOp (p : Params) (s : State) : Inv p (resetOp p s) where
  pend_ok := nofun
  seq_pos := seqReset_ne_zero p
  rxbuf_le := Nat.zero_le _
  rxbuf_short := nofun
  evq_le := fun n _ => Nat.zero_le n
  evq_payload := nofun
  evq_unbounded := fun _ => rfl
  result_ok := nofun
  result_or_pend := .inl rfl

/-- SUBMIT refuses a payload above the bound before it stores anything (R99). -/
theorem Inv.submitOp (h : Inv p s) (code : Byte) (expected : Option Byte) (plen : Byte) (payload : Bytes)
    (hlen : payload.length = plen.toNat) : Inv p (submitOp p code expected plen payload s) := by
  rcases submitOp_cases p code expected plen payload s with ⟨-, e⟩ | ⟨-, -, e⟩ | ⟨hle, -, e⟩ <;> rw [e]
  · exact h.giveBack _
  · exact h.giveBack _
  · have hnew : (newPending code expected payload).Ok := newPending_ok code expected payload (hlen ▸ hle)
    exact (h.clearResult.setPend hnew rfl).giveBack (.status .ok)

end

theorem WireStep.inv {i : Instr} {s t : State} (hstep : WireStep i s t) (h : Inv Config.params s) :
    Inv Config.params t := by
  cases hstep with
  | resynced => exact h.setRxbuf marker (by decide) (by decide)
  | kept b hf => exact h.keepByte b hf
  | completed f => exact h.completeFrame f
  | routed _ hrouter => exact hrouter.inv h
  | transmitted code seq payload => exact h.emitTx _
  | resetTo => exact inv_resetOp _ s

theorem exec_keeps_inv (i : Instr) (s t : State) (hwf : i.wf = true) (h : Inv Config.params s)
    (he : exec i s = .next t) : Inv Config.params t := by
  cases hi : i.isHostOp with
  | false => exact (exec_wireStep i s t hi he).inv h
  | true =>
    cases i with
    | submit code ev exp plen payload => cases he; exact h.submitOp code _ plen payload (of_decide_eq_true hwf)
    | takeResult => cases he; exact h.clearResult.giveBack _
    | status => cases he; exact h.giveBack _
    | drain => cases he; exact h.clearEvents.giveBack _
    | reservedOp => cases he; exact h.giveBack _
    | rxByte | frameStd | frameShort | poll | ack | dataMatched | dataUnmatched | txAck | txCmd | reset => cases hi

/-- Settles O55, by the invariants' preservation under every well-formed row (`exec_keeps_inv`). -/
theorem stepKeepsInvariants : Obligations.StepKeepsInvariants :=
  fun _ _ hs h => step_keeps (fun _ rest hinv => hinv.inputs rest) exec_keeps_inv hs h

end Sys2Proof.Machine
end

section
/-! PROOFS. The traces of R30 and R31: they only grow, the transmit trace in whole verified frames, the receive trace in
true records; and the invariants, the traces' included, after reset. -/

namespace Sys2Proof.Machine

/-! ### What the encoder builds is a whole frame (R52, R70, R73) -/

theorem isFrame_enc (code seq : Byte) (payload : Bytes) (h : payload.length ≤ maxTxPayload) :
    isFrame (enc code seq payload) = true := by
  by_cases hc : code = cmdAck
  · rw [hc, enc_ack]; decide
  · rw [enc_eq_stdFrame code seq payload hc]
    exact isFrame_stdFrame _ _ _ _ _ _ _ (by rw [txLen_toNat payload h, Nat.add_comm])

theorem verify_enc (code seq : Byte) (payload : Bytes) : verify (enc code seq payload) = true := by
  by_cases hc : code = cmdAck
  · rw [hc, enc_ack]; decide
  · rw [enc_of_ne code seq payload hc, verify_iff, List.dropLast_concat, List.getLastD_concat]

theorem take_two_enc (code seq : Byte) (payload : Bytes) : (enc code seq payload).take 2 = marker := by
  by_cases hc : code = cmdAck
  · rw [hc, enc_ack]; rfl
  · rw [enc_of_ne code seq payload hc]; rfl

/-! ### The transmit trace (R30) -/

theorem State.TxWhole.of_tx_eq {s t : State} (h : s.TxWhole) (htx : t.tx = s.tx) : t.TxWhole := by
  obtain ⟨fs, hfs, hall⟩ := h
  exact ⟨fs, htx.trans hfs, hall⟩

/-- One more encoded frame keeps the trace whole. -/
theorem State.TxWhole.append_enc {s t : State} (h : s.TxWhole) (code seq : Byte) (payload : Bytes)
    (hlen : payload.length ≤ maxTxPayload) (htx : t.tx = s.tx ++ enc code seq payload) : t.TxWhole := by
  obtain ⟨fs, hfs, hall⟩ := h
  refine ⟨fs ++ [enc code seq payload], by rw [htx, hfs]; simp, fun f hf => ?_⟩
  rcases List.mem_append.mp hf with hold | hnew
  · exact hall f hold
  · rw [List.mem_singleton.mp hnew]
    exact ⟨isFrame_enc code seq payload hlen, verify_enc code seq payload, take_two_enc code seq payload⟩

/-- The invariant bounds the pending payload, and well-formedness that of a frame handed to the transport. -/
theorem WireStep.txWhole {i : Instr} {s t : State} (hstep : WireStep i s t) (hwf : i.wf = true)
    (hinv : Inv Config.params s) (h : s.TxWhole) : t.TxWhole := by
  rcases hstep.tx with e | e | ⟨x, hpend, e⟩ | ⟨code, seq, payload, e, hlen⟩
  · exact h.of_tx_eq e
  · exact h.append_enc cmdAck s.seq [] (Nat.zero_le _) e
  · exact h.append_enc x.code s.seq x.payload (hinv.pend_ok x hpend).payload_le e
  · exact h.append_enc code seq payload (hlen hwf) e

theorem exec_keeps_txWhole (i : Instr) (s t : State) (hwf : i.wf = true) (hinv : Inv Config.params s)
    (h : s.TxWhole) (he : exec i s = .next t) : t.TxWhole := by
  cases hi : i.isHostOp with
  | false => exact (exec_wireStep i s t hi he).txWhole hwf hinv h
  | true =>
    obtain ⟨-, htx, -⟩ := hostOp_frame i s t hi he
    exact h.of_tx_eq htx

/-- Settles O56: the invariants travel with the trace, since they bound the payload a POLL transmits. -/
theorem stepKeepsTransmitTraceWhole : Obligations.StepKeepsTransmitTraceWhole := by
  intro s t hinv htx h
  have hboth : Inv Config.params t ∧ t.TxWhole :=
    step_keeps (P := fun u => Inv Config.params u ∧ u.TxWhole)
      (fun u rest ⟨hi, hw⟩ => ⟨hi.inputs rest, hw.of_tx_eq rfl⟩)
      (fun i u v hwf ⟨hi, hw⟩ he => ⟨exec_keeps_inv i u v hwf hi he, exec_keeps_txWhole i u v hwf hi hw he⟩)
      ⟨hinv, htx⟩ h
  exact hboth.2

/-! ### The receive trace (R31) -/

/-- The record of a complete frame is true (R31, R75, R86). -/
theorem frameRec_true (f : Bytes) (hf : isFrame f = true) :
    isFrame (frameRec Config.params f).raw = true ∧
    (frameRec Config.params f).toDecoded = dec (frameRec Config.params f).raw ∧
    (frameRec Config.params f).chkOk = verify (frameRec Config.params f).raw ∧
    ((frameRec Config.params f).routed = true ↔ Routed (frameRec Config.params f).raw) := by
  have hraw : (frameRec Config.params f).raw = f := dec_raw f
  rw [hraw]
  exact ⟨hf, rfl, rfl, routes_iff Config.params (verify f)⟩

theorem State.RxlogTrue.of_rxlog_eq {s t : State} (h : s.RxlogTrue) (hlog : t.rxlog = s.rxlog) : t.RxlogTrue :=
  fun r hr => h r (hlog ▸ hr)

theorem State.RxlogTrue.append {s t : State} (h : s.RxlogTrue) (f : Bytes) (hf : isFrame f = true)
    (hlog : t.rxlog = s.rxlog ++ [frameRec Config.params f]) : t.RxlogTrue := by
  intro r hr
  rw [hlog] at hr
  rcases List.mem_append.mp hr with hold | hnew
  · exact h r hold
  · rw [List.mem_singleton.mp hnew]; exact frameRec_true f hf

theorem exec_keeps_rxlogTrue (i : Instr) (s t : State) (hwf : i.wf = true) (h : s.RxlogTrue)
    (he : exec i s = .next t) : t.RxlogTrue := by
  cases hi : i.isHostOp with
  | false =>
    rcases (exec_wireStep i s t hi he).rxlog with e | ⟨f, e, hf⟩
    · exact h.of_rxlog_eq e
    · exact h.append f (hf hwf) e
  | true =>
    obtain ⟨-, -, hlog, -⟩ := hostOp_frame i s t hi he
    exact h.of_rxlog_eq hlog

/-- Settles O57: a row logs nothing, or the record of the complete frame it was given. -/
theorem stepKeepsReceiveTraceTrue : Obligations.StepKeepsReceiveTraceTrue :=
  fun _ _ hs h => step_keeps (fun _ _ htrue => htrue.of_rxlog_eq rfl) exec_keeps_rxlogTrue hs h

/-! ### The traces only grow (R30, R31) -/

theorem WireStep.traces_grow {i : Instr} {s t : State} (h : WireStep i s t) :
    s.tx <+: t.tx ∧ s.rxlog <+: t.rxlog ∧ s.hostlog <+: t.hostlog := by
  refine ⟨?_, ?_, by rw [h.host_frame.1]⟩
  · rcases h.tx with e | e | ⟨_, -, e⟩ | ⟨_, _, _, e, -⟩
    · rw [e]
    · exact ⟨_, e.symm⟩
    · exact ⟨_, e.symm⟩
    · exact ⟨_, e.symm⟩
  · rcases h.rxlog with e | ⟨_, e, -⟩
    · rw [e]
    · exact ⟨_, e.symm⟩

/-- Settles O50: each trace is kept or appended to, by what a wire-side row and a host operation can do. -/
theorem tracesOnlyGrow : Obligations.TracesOnlyGrow := by
  intro i s t he
  cases hi : i.isHostOp with
  | false => exact (exec_wireStep i s t hi he).traces_grow
  | true =>
    obtain ⟨-, htx, hlog, -, -, _, hhost⟩ := hostOp_frame i s t hi he
    exact ⟨by rw [htx], by rw [hlog], ⟨_, hhost.symm⟩⟩

/-! ### After reset (R33) -/

/-- Settles O46: `State.resetWith` writes the values of R33. -/
theorem stateAfterReset : Obligations.StateAfterReset := ⟨rfl, rfl, rfl, rfl, rfl, rfl⟩

/-- RESET changes nothing of the state after reset, the traces it keeps being empty there (R121; entry 7). -/
theorem resetOp_reset : resetOp Config.params State.reset = State.reset := rfl

/-- Settles O54: RESET's values meet the invariants, and no frame is in an empty trace. -/
theorem resetMeetsInvariants : Obligations.ResetMeetsInvariants :=
  ⟨resetOp_reset ▸ inv_resetOp Config.params State.reset, ⟨[], rfl, nofun⟩, nofun⟩

end Sys2Proof.Machine
end

section
/-! PROOFS. Who writes what (R36, R110): host operations and wire-side rows. -/

namespace Sys2Proof.Machine

/-! ### The host side (R99 to R103) -/

/-- SUBMIT leaves the events alone (R99). -/
theorem submitOp_events (p : Params) (code : Byte) (expected : Option Byte) (plen : Byte) (payload : Bytes)
    (s : State) : (submitOp p code expected plen payload s).evq = s.evq ∧
      (submitOp p code expected plen payload s).evqOvf = s.evqOvf := by
  rcases submitOp_cases p code expected plen payload s with ⟨-, e⟩ | ⟨-, -, e⟩ | ⟨-, -, e⟩ <;> rw [e] <;>
    exact ⟨rfl, rfl⟩

/-- Settles O48: what every host operation leaves alone is `hostOp_frame`; the rest is by operation. -/
theorem hostOperationOwnership : Obligations.HostOperationOwnership := by
  intro i s t hi he
  obtain ⟨hbuf, htx, hlog, hseq, hin, hret⟩ := hostOp_frame i s t hi he
  refine ⟨hbuf, htx, hlog, hseq, hin, hret, ?_⟩
  cases i with
  | submit code ev exp plen payload =>
    cases he
    exact ⟨.inr ⟨code, ev, exp, plen, payload, rfl⟩, .inr (.inr ⟨code, ev, exp, plen, payload, rfl⟩),
      .inl (submitOp_events _ code _ plen payload s)⟩
  | takeResult => cases he; exact ⟨.inl rfl, .inr (.inl rfl), .inl ⟨rfl, rfl⟩⟩
  | drain => cases he; exact ⟨.inl rfl, .inl rfl, .inr rfl⟩
  | status | reservedOp => cases he; exact ⟨.inl rfl, .inl rfl, .inl ⟨rfl, rfl⟩⟩
  | rxByte | frameStd | frameShort | poll | ack | dataMatched | dataUnmatched | txAck | txCmd | reset => cases hi

/-! ### The wire side (R88 to R96) -/

/-- A POLL writes neither the sequence counter nor the events (R88 to R91). -/
theorem onPoll_keeps (s : State) :
    (onPoll s).seq = s.seq ∧ (onPoll s).evq = s.evq ∧ (onPoll s).evqOvf = s.evqOvf := by
  rcases onPoll_cases s with ⟨-, e⟩ | ⟨_, -, -, e⟩ | ⟨_, -, -, -, e⟩ | ⟨_, -, -, -, e⟩ <;> rw [e] <;>
    exact ⟨rfl, rfl, rfl⟩

/-- An ACK transmits nothing and leaves the events alone (R92, R93, R96). -/
theorem onAck_keeps (s : State) :
    (onAck s).tx = s.tx ∧ (onAck s).evq = s.evq ∧ (onAck s).evqOvf = s.evqOvf := by
  rcases onAck_cases s with ⟨-, e⟩ | ⟨_, _, -, -, -, e⟩ | ⟨_, -, -, -, e⟩ <;> rw [e] <;> exact ⟨rfl, rfl, rfl⟩

/-- The matched case writes neither the sequence counter nor the events (R94). -/
theorem matchedCase_keeps (d : Decoded) (s : State) :
    (matchedCase d s).seq = s.seq ∧ (matchedCase d s).evq = s.evq ∧ (matchedCase d s).evqOvf = s.evqOvf := by
  cases h : s.expects d.cmd with
  | true => rw [matchedCase_of_expects d s h]; exact ⟨rfl, rfl, rfl⟩
  | false => rw [matchedCase_of_not_expects d s h]; exact ⟨rfl, rfl, rfl⟩

/-- The unmatched case leaves the transaction and the result alone (R95). -/
theorem unmatchedCase_keeps (p : Params) (d : Decoded) (s : State) :
    (unmatchedCase p d s).pend = s.pend ∧ (unmatchedCase p d s).result = s.result := by
  cases h : s.expects d.cmd with
  | true => rw [unmatchedCase_of_expects p d s h]; exact ⟨rfl, rfl⟩
  | false => rw [unmatchedCase_of_not_expects p d s h, onUnmatched_frame]; exact ⟨rfl, rfl⟩

/-- Settles O49, a clause at a time: `WireStep.host_frame`, `RouterStep.frame`, and what each case keeps. -/
theorem wireRowOwnership : Obligations.WireRowOwnership := by
  intro i s t he
  refine ⟨fun hi => (exec_wireStep i s t hi he).host_frame, fun f hi => ?_, fun hi => ?_, fun f hi => ?_,
    fun f hi => ?_, fun f hi => ?_, fun f hi => ?_⟩
  · obtain ⟨hbuf, hlog, -, -⟩ := (exec_routerStep i f s t hi he).frame
    exact ⟨hbuf, hlog⟩
  · rcases hi with rfl | ⟨code, seq, payload, rfl⟩ <;> cases he <;> rfl
  · subst hi; cases he
    exact whenRouted_holds (fun u => u.seq = s.seq ∧ u.evq = s.evq ∧ u.evqOvf = s.evqOvf) _ f _ s
      (onPoll_keeps s) ⟨rfl, rfl, rfl⟩
  · subst hi; cases he
    exact whenRouted_holds (fun u => u.tx = s.tx ∧ u.evq = s.evq ∧ u.evqOvf = s.evqOvf) _ f _ s
      (onAck_keeps s) ⟨rfl, rfl, rfl⟩
  · subst hi; cases he
    exact whenRouted_holds (fun u => u.seq = s.seq ∧ u.evq = s.evq ∧ u.evqOvf = s.evqOvf) _ f _ s
      (matchedCase_keeps _ s) ⟨rfl, rfl, rfl⟩
  · subst hi; cases he
    exact whenRouted_holds (fun u => u.pend = s.pend ∧ u.result = s.result) _ f _ s
      (unmatchedCase_keeps _ _ s) ⟨rfl, rfl⟩

end Sys2Proof.Machine
end

section
/-! PROOFS. Runs of rows: framing depends on the bytes alone (R85), and the retry bound (R24). -/

namespace Sys2Proof.Machine

/-! ### Runs -/

theorem execAll_cons_of_next {i : Instr} {s t : State} (is : List Instr) (h : exec i s = .next t) :
    execAll (i :: is) s = execAll is t := by simp [execAll, h]

theorem execAll_append_of_next {is : List Instr} {s t : State} (js : List Instr) (h : execAll is s = .next t) :
    execAll (is ++ js) s = execAll js t := by
  induction is generalizing s with
  | nil => cases h; rfl
  | cons i is ih =>
    obtain ⟨u, hu⟩ := exec_next i s
    rw [execAll_cons_of_next is hu] at h
    rw [List.cons_append, execAll_cons_of_next _ hu, ih h]

/-! ### Framing as a function of the bytes (R78, R85) -/

/-- The buffer and the receive trace, all that framing reads and writes. -/
def State.framing (s : State) : Bytes × List FrameRec := (s.rxbuf, s.rxlog)

/-- What a received byte makes of the buffer and the receive trace (R78); any other row leaves them. -/
def framingStep (x : Bytes × List FrameRec) : Instr → Bytes × List FrameRec
  | .rxByte b =>
    if endsWithMarker (x.1 ++ [b]) then (marker, x.2)
    else if isFrame (x.1 ++ [b]) then ([], x.2 ++ [frameRec Config.params (x.1 ++ [b])])
    else (x.1 ++ [b], x.2)
  | _ => x

theorem receive_framing (b : Byte) (s : State) :
    (receive Config.params b s).framing = framingStep s.framing (.rxByte b) := by
  rcases receive_cases Config.params b s with ⟨hlast, hb, e⟩ | ⟨hm, hf, e⟩ | ⟨hm, hf, e⟩ <;> rw [e]
  · have hm : endsWithMarker (s.rxbuf ++ [b]) = true := (endsWithMarker_append _ _).mpr ⟨hlast, hb⟩
    simp [State.framing, framingStep, hm]
  · simp [State.framing, framingStep, hm, hf]
  · simp [State.framing, framingStep, hm, hf]

theorem hostOp_framing {i : Instr} {s t : State} (hi : i.isHostOp = true) (he : exec i s = .next t) :
    t.framing = s.framing := by
  obtain ⟨hbuf, -, hlog, -⟩ := hostOp_frame i s t hi he
  rw [State.framing, hbuf, hlog, State.framing]

/-- A run of received bytes and host operations frames what the received bytes alone do. -/
theorem execAll_framing {is : List Instr} {s t : State} (his : ∀ i ∈ is, i.isHostOp = true ∨ ∃ b, i = .rxByte b)
    (h : execAll is s = .next t) :
    t.framing = (is.filter (fun i => !i.isHostOp)).foldl framingStep s.framing := by
  induction is generalizing s with
  | nil => cases h; rfl
  | cons i is ih =>
    obtain ⟨u, hu⟩ := exec_next i s
    rw [execAll_cons_of_next is hu] at h
    rw [ih (fun j hj => his j (List.mem_cons_of_mem i hj)) h]
    rcases his i List.mem_cons_self with hhost | ⟨b, rfl⟩
    · rw [List.filter_cons_of_neg (by simp [hhost]), hostOp_framing hhost hu]
    · cases hu
      rw [List.filter_cons_of_pos (by rfl), List.foldl_cons, receive_framing]

/-- Settles O19: both runs fold the same bytes over the same buffer and receive trace. -/
theorem framingIgnoresHostOperations : Obligations.FramingIgnoresHostOperations := by
  intro is js s s' t t' his hjs hsame hbuf hlog ht ht'
  have hstart : s.framing = s'.framing := by rw [State.framing, hbuf, hlog, State.framing]
  have hend : t.framing = t'.framing := by
    rw [execAll_framing his ht, execAll_framing hjs ht', hsame, hstart]
  exact Prod.mk.inj hend

/-! ### POLL after POLL (R24, R90, R91) -/

/-- While the command is due a POLL sends it or fails the transaction (R90, R91). -/
theorem onPoll_of_due (s : State) (x : Pending) (hpend : s.pend = some x) (hdue : x.st ≠ .ackReceivedAwaitingData) :
    onPoll s = sendOrFail x s := by
  cases hst : x.st with
  | awaitingPoll => simp [onPoll, hpend, hst]
  | sentAwaitingAck => simp [onPoll, hpend, hst]
  | ackReceivedAwaitingData => exact absurd hst hdue

theorem exec_poll_of_routed (f : Bytes) (s : State) (h : Routed f) : exec (.poll f) s = .next (onPoll s) := by
  rw [exec_poll, whenRouted_yes Config.params f onPoll s h]

/-- The pending record after `k` transmissions of a fresh command (R24). -/
def polledPending (x : Pending) (k : Nat) : Pending :=
  { x with st := if k = 0 then .awaitingPoll else .sentAwaitingAck, retries := k }

/-- The state after `k` POLLs of a fresh command (R90). -/
def polledState (x : Pending) (k : Nat) (s : State) : State :=
  { s with
    tx := s.tx ++ (List.replicate k (enc x.code s.seq x.payload)).flatten
    pend := some (polledPending x k) }

theorem polledPending_due (x : Pending) (k : Nat) : (polledPending x k).st ≠ .ackReceivedAwaitingData := by
  by_cases h : k = 0 <;> simp [polledPending, h]

/-- A command never sent is its own record after no transmission. -/
theorem polledState_zero (x : Pending) (s : State) (hpend : s.pend = some x) (hst : x.st = .awaitingPoll)
    (hr : x.retries = 0) : polledState x 0 s = s := by
  have hx : polledPending x 0 = x := by rw [polledPending, ← hr]; simp [← hst]
  simp [polledState, hx, ← hpend]

theorem onPoll_polledState (x : Pending) (k : Nat) (s : State) (hk : k < maxRetries) :
    onPoll (polledState x k s) = polledState x (k + 1) s := by
  rw [onPoll_of_due _ (polledPending x k) rfl (polledPending_due x k), sendOrFail_send _ _ hk]
  simp [polledState, sentState, polledPending, List.replicate_succ']

theorem onPoll_polledState_spent (x : Pending) (s : State) :
    onPoll (polledState x maxRetries s) = spentState (polledState x maxRetries s) := by
  rw [onPoll_of_due _ (polledPending x maxRetries) rfl (polledPending_due x maxRetries)]
  exact sendOrFail_fail _ _ (Nat.lt_irrefl _)

/-- By induction on the number of POLLs. -/
theorem execAll_polls (f : Bytes) (x : Pending) (s : State) (hf : Routed f) (hpend : s.pend = some x)
    (hst : x.st = .awaitingPoll) (hr : x.retries = 0) (k : Nat) (hk : k ≤ maxRetries) :
    execAll (List.replicate k (.poll f)) s = .next (polledState x k s) := by
  induction k with
  | zero => rw [polledState_zero x s hpend hst hr]; rfl
  | succ k ih =>
    rw [List.replicate_succ', execAll_append_of_next _ (ih (Nat.le_of_succ_le hk)),
      execAll_cons_of_next [] (exec_poll_of_routed f _ hf), onPoll_polledState x k s hk]
    rfl

/-- Settles O35: five POLLs by `execAll_polls`, and the sixth finds the retries spent. -/
theorem retryBound : Obligations.RetryBound := by
  intro f s x hf hpend hst hr
  refine ⟨execAll_polls f x s hf hpend hst hr, ?_⟩
  have hfive := execAll_polls f x s hf hpend hst hr maxRetries (Nat.le_refl _)
  calc execAll (List.replicate 6 (.poll f)) s
      = execAll (List.replicate maxRetries (.poll f) ++ [.poll f]) s := rfl
    _ = execAll [.poll f] (polledState x maxRetries s) := execAll_append_of_next _ hfive
    _ = .next (spentState (polledState x maxRetries s)) := by
        rw [execAll_cons_of_next [] (exec_poll_of_routed f _ hf), onPoll_polledState_spent]; rfl

end Sys2Proof.Machine
end

section
/-! SUPPORT. The record of a well-formed instruction decodes to that instruction, port by port (R65; the record layout
is the model's, entry 2). -/

namespace Sys2Proof.Machine

theorem decodeSubmit_operands (code : Byte) (expValid : Bool) (exp plen : Byte) (payload : Bytes)
    (h : payload.length = plen.toNat) :
    decodeSubmit (code :: bitByte expValid :: exp :: plen :: payload) =
      .ok (.submit code expValid exp plen payload) := by
  cases expValid with
  | false => simp [decodeSubmit, bitByte, h]
  | true => simp [decodeSubmit, bitByte, h]

/-- A reserved selector is none of the four operations', and its low two bits are kept (R66). -/
theorem decodeHost_reserved (low : BitVec 2) (operands : Bytes) :
    decodeHost (reservedSelector low :: operands) = .ok (.reservedOp low operands) := by
  have hsel : (reservedSelector low).toNat = 4 + low.toNat := reservedSelector_toNat low
  have hlow : low.toNat < 4 := low.isLt
  have hne : ∀ b : Byte, b.toNat < 4 → reservedSelector low ≠ b := by
    rintro b hb rfl
    omega
  have hkeep : (reservedSelector low).setWidth 2 = low := by
    apply BitVec.eq_of_toNat_eq
    rw [BitVec.toNat_setWidth, hsel]
    omega
  rw [decodeHost, if_neg (hne 0x00 (by decide)), if_neg (hne 0x01 (by decide)), if_neg (hne 0x02 (by decide)),
    if_neg (hne 0x03 (by decide)), if_pos (by omega), hkeep]

/-- The length byte of a standard form is not 0, which is what tells it from a short form (R51, R56). -/
theorem decodeFrame_stdFrame (m0 m1 cmd len seqno : Byte) (payload : Bytes) (chk : Byte)
    (h : payload.length + 1 = len.toNat) :
    decodeFrame (stdFrame m0 m1 cmd len seqno payload chk) = .ok (.frameStd m0 m1 cmd len seqno payload chk) := by
  have hlen : len ≠ 0x00 := by rintro rfl; cases h
  calc decodeFrame (stdFrame m0 m1 cmd len seqno payload chk)
      = .ok (.frameStd m0 m1 cmd len seqno (payload ++ [chk]).dropLast ((payload ++ [chk]).getLastD 0)) :=
        (if_pos (isFrame_stdFrame m0 m1 cmd len seqno payload chk h)).trans (if_neg hlen)
    _ = .ok (.frameStd m0 m1 cmd len seqno payload chk) := by rw [List.dropLast_concat, List.getLastD_concat]

theorem decodeFrame_shortFrame (m0 m1 cmd chk : Byte) :
    decodeFrame (shortFrame m0 m1 cmd chk) = .ok (.frameShort m0 m1 cmd chk) :=
  (if_pos (isFrame_shortFrame m0 m1 cmd chk)).trans (if_pos rfl)

theorem decodeRouter_poll (f : Bytes) (h : (Instr.poll f).wf = true) : decodeRouter f = .ok (.poll f) := by
  obtain ⟨hf, hc⟩ : isFrame f = true ∧ cmdByte f = cmdPoll := by simpa [Instr.wf] using h
  rw [decodeRouter, if_pos hf, if_pos hc]

theorem decodeRouter_ack (f : Bytes) (h : (Instr.ack f).wf = true) : decodeRouter f = .ok (.ack f) := by
  obtain ⟨hf, hc⟩ : isFrame f = true ∧ cmdByte f = cmdAck := by simpa [Instr.wf] using h
  rw [decodeRouter, if_pos hf, if_neg (by rw [hc]; decide), if_pos hc]

theorem decodeData_of_dataFrame (row : Bytes → Instr) (f : Bytes)
    (h : (isFrame f && isDataCmd (cmdByte f)) = true) : decodeData row f = .ok (row f) := by
  obtain ⟨hf, hc⟩ := (Bool.and_eq_true _ _).mp h
  rw [decodeData, if_pos hf, if_pos hc]

/-- The transmitted bytes give back the operands: no command frame has the ACK frame's command byte (R71, R72). -/
theorem decodeTransmit_enc (code seq : Byte) (payload : Bytes) (h : (Instr.txCmd code seq payload).wf = true) :
    decodeTransmit (enc code seq payload) = .ok (.txCmd code seq payload) := by
  have hc : code ≠ cmdAck := by
    rintro rfl
    simp [Instr.wf] at h
  have hack : enc code seq payload ≠ ackFrame := by
    rw [enc_eq_stdFrame code seq payload hc]
    exact fun e => hc (congrArg cmdByte e)
  have hdrop : (payload ++ [chkOf (cmdBody code seq payload)]).dropLast = payload := List.dropLast_concat
  rw [enc_eq_stdFrame code seq payload hc] at hack ⊢
  refine (if_neg hack).trans ((if_pos ?_).trans ?_)
  · rw [hdrop, enc_eq_stdFrame code seq payload hc]
  · rw [hdrop, if_pos h]

/-- Port by port: each row's record reaches the decoder of its own port (R65; entry 2). -/
theorem decode_encode (i : Instr) (h : i.wf = true) : decode (encode i) = .ok i := by
  cases i with
  | frameStd m0 m1 cmd len seqno payload chk =>
    exact decodeFrame_stdFrame m0 m1 cmd len seqno payload chk (of_decide_eq_true h)
  | frameShort m0 m1 cmd chk => exact decodeFrame_shortFrame m0 m1 cmd chk
  | poll f => exact decodeRouter_poll f h
  | ack f => exact decodeRouter_ack f h
  | dataMatched f => exact decodeData_of_dataFrame .dataMatched f h
  | dataUnmatched f => exact decodeData_of_dataFrame .dataUnmatched f h
  | txCmd code seq payload => exact decodeTransmit_enc code seq payload h
  | submit code expValid exp plen payload =>
    exact decodeSubmit_operands code expValid exp plen payload (of_decide_eq_true h)
  | reservedOp low operands => exact decodeHost_reserved low operands
  | rxByte | txAck | takeResult | status | drain | reset => rfl

end Sys2Proof.Machine
end

section
/-! SUPPORT. No row reads the schedule (the model's own field, entry 1): with another schedule waiting, a row does the
same and leaves that schedule. -/

namespace Sys2Proof.Machine

/-- The state with another schedule waiting. -/
def State.withInputs (s : State) (l : List Bytes) : State := { s with inputs := l }

@[simp] theorem State.withInputs_expects (s : State) (l : List Bytes) (c : Byte) :
    (s.withInputs l).expects c = s.expects c := rfl

@[simp] theorem State.withInputs_turnsAway (s : State) (l : List Bytes) (p : Params) :
    (s.withInputs l).turnsAway p = s.turnsAway p := rfl

/-- `g` neither reads nor writes the schedule. -/
def ScheduleFree (g : State → State) : Prop := ∀ s l, g (s.withInputs l) = (g s).withInputs l

/-! ### The router (42_dispatch_router.md) -/

theorem scheduleFree_sendOrFail (x : Pending) : ScheduleFree (sendOrFail x) := by
  intro s l
  by_cases hr : x.retries < maxRetries
  · rw [sendOrFail_send x _ hr, sendOrFail_send x s hr]; rfl
  · rw [sendOrFail_fail x _ hr, sendOrFail_fail x s hr]; rfl

/-- A POLL with nothing pending is answered with an idle ACK (R88). -/
theorem onPoll_of_no_pending (s : State) (hpend : s.pend = none) : onPoll s = ackedState s := by
  simp [onPoll, hpend, idleAck_eq]

/-- A POLL while the data frame is awaited is answered with an idle ACK too (R89). -/
theorem onPoll_of_data_awaited (s : State) (x : Pending) (hpend : s.pend = some x)
    (hst : x.st = .ackReceivedAwaitingData) : onPoll s = ackedState s := by
  simp [onPoll, hpend, hst, idleAck_eq]

theorem scheduleFree_onPoll : ScheduleFree onPoll := by
  intro s l
  cases hpend : s.pend with
  | none => rw [onPoll_of_no_pending (s.withInputs l) hpend, onPoll_of_no_pending s hpend]; rfl
  | some x =>
    by_cases hst : x.st = .ackReceivedAwaitingData
    · rw [onPoll_of_data_awaited (s.withInputs l) x hpend hst, onPoll_of_data_awaited s x hpend hst]; rfl
    · rw [onPoll_of_due (s.withInputs l) x hpend hst, onPoll_of_due s x hpend hst, scheduleFree_sendOrFail x s l]

theorem scheduleFree_ackSent (x : Pending) : ScheduleFree (ackSent x) := by
  intro s l
  cases hexp : x.expected with
  | none => rw [ackSent_none x _ hexp, ackSent_none x s hexp]; rfl
  | some c => rw [ackSent_some x _ c hexp, ackSent_some x s c hexp]; rfl

theorem onAck_of_sent (s : State) (x : Pending) (hpend : s.pend = some x) (hst : x.st = .sentAwaitingAck) :
    onAck s = ackSent x s := by
  simp [onAck, hpend, hst]

/-- An ACK in any other state changes nothing (R96). -/
theorem onAck_of_not_sent (s : State) (h : ∀ x, s.pend = some x → x.st ≠ .sentAwaitingAck) : onAck s = s := by
  rcases onAck_cases s with ⟨-, e⟩ | ⟨x, _, hpend, hst, -, -⟩ | ⟨x, hpend, hst, -, -⟩
  · exact e
  · exact absurd hst (h x hpend)
  · exact absurd hst (h x hpend)

theorem scheduleFree_onAck : ScheduleFree onAck := by
  intro s l
  by_cases h : ∃ x, s.pend = some x ∧ x.st = .sentAwaitingAck
  · obtain ⟨x, hpend, hst⟩ := h
    rw [onAck_of_sent (s.withInputs l) x hpend hst, onAck_of_sent s x hpend hst, scheduleFree_ackSent x s l]
  · have hother : ∀ x, s.pend = some x → x.st ≠ .sentAwaitingAck := fun x hpend hst => h ⟨x, hpend, hst⟩
    rw [onAck_of_not_sent (s.withInputs l) hother, onAck_of_not_sent s hother]

theorem scheduleFree_queueEvent (p : Params) (e : Event) : ScheduleFree (State.queueEvent p e) := by
  intro s l
  have hsame : hasRoom p (s.withInputs l).evq.length = hasRoom p s.evq.length := rfl
  rw [State.queueEvent, State.queueEvent, hsame]
  split_ifs <;> rfl

theorem scheduleFree_onUnmatched (p : Params) (c : Byte) (payload : Bytes) :
    ScheduleFree (onUnmatched p c payload) :=
  fun s l => congrArg State.advanceSeq (scheduleFree_queueEvent p { code := c, payload := payload } s.idleAck l)

theorem scheduleFree_matchedCase (d : Decoded) : ScheduleFree (matchedCase d) := by
  intro s l
  rw [matchedCase, matchedCase, State.withInputs_expects]
  split_ifs <;> rfl

theorem scheduleFree_unmatchedCase (p : Params) (d : Decoded) : ScheduleFree (unmatchedCase p d) := by
  intro s l
  rw [unmatchedCase, unmatchedCase, State.withInputs_expects]
  split_ifs
  · rfl
  · exact scheduleFree_onUnmatched p d.cmd d.payload s l

theorem scheduleFree_dispatch (p : Params) (d : Decoded) : ScheduleFree (dispatch p d) := by
  intro s l
  by_cases hpoll : d.cmd = cmdPoll
  · simp only [dispatch, if_pos hpoll]; exact scheduleFree_onPoll s l
  by_cases hack : d.cmd = cmdAck
  · simp only [dispatch, if_neg hpoll, if_pos hack]; exact scheduleFree_onAck s l
  have hdata : isDataCmd d.cmd = true := (isDataCmd_iff _).mpr ⟨hpoll, hack⟩
  rw [dispatch_data p d s hdata, dispatch_data p d _ hdata, State.withInputs_expects]
  split_ifs
  · exact scheduleFree_matchedCase d s l
  · exact scheduleFree_unmatchedCase p d s l

theorem ScheduleFree.whenRouted {g : State → State} (hg : ScheduleFree g) (p : Params) (f : Bytes) :
    ScheduleFree (whenRouted p f g) := by
  intro s l
  cases h : routes p (verify f) with
  | true => simp only [Machine.whenRouted, h, if_true]; exact hg s l
  | false => simp [Machine.whenRouted, h]

/-! ### The reader and the host port (41_frame_reader.md, 43_host_interface.md) -/

theorem scheduleFree_completeFrame (p : Params) (f : Bytes) : ScheduleFree (completeFrame p f) := fun s l =>
  congrArg (State.logRx · (frameRec p f)) ((scheduleFree_dispatch p (dec f)).whenRouted p f (s.setRxbuf []) l)

theorem scheduleFree_receive (p : Params) (b : Byte) : ScheduleFree (receive p b) := by
  intro s l
  have hsame : receive p b (s.withInputs l) = afterAppend p (s.rxbuf ++ [b]) (s.withInputs l) := rfl
  rw [hsame, receive, afterAppend, afterAppend]
  split_ifs
  · rfl
  · exact scheduleFree_completeFrame p _ s l
  · rfl

theorem scheduleFree_submitOp (p : Params) (code : Byte) (expected : Option Byte) (plen : Byte) (payload : Bytes) :
    ScheduleFree (submitOp p code expected plen payload) := by
  intro s l
  rw [submitOp, submitOp, State.withInputs_turnsAway]
  split_ifs <;> rfl

/-! ### The rows -/

theorem exec_withInputs (i : Instr) (s t : State) (l : List Bytes) (h : exec i s = .next t) :
    exec i (s.withInputs l) = .next (t.withInputs l) := by
  cases i with
  | rxByte b => cases h; exact congrArg _ (scheduleFree_receive _ b s l)
  | frameStd | frameShort => cases h; exact congrArg _ (scheduleFree_completeFrame _ _ s l)
  | poll f => cases h; exact congrArg _ (scheduleFree_onPoll.whenRouted _ f s l)
  | ack f => cases h; exact congrArg _ (scheduleFree_onAck.whenRouted _ f s l)
  | dataMatched f => cases h; exact congrArg _ ((scheduleFree_matchedCase _).whenRouted _ f s l)
  | dataUnmatched f => cases h; exact congrArg _ ((scheduleFree_unmatchedCase _ _).whenRouted _ f s l)
  | submit code expValid exp plen payload => cases h; exact congrArg _ (scheduleFree_submitOp _ code _ plen payload s l)
  | txAck | txCmd | takeResult | status | drain | reservedOp | reset => cases h; rfl

end Sys2Proof.Machine
end

section
/-! PROOFS. The statements of 20_memory.md: a schedule of records runs in order, and the sizes of encoded frames. -/

namespace Sys2Proof.Machine

/-! ### Schedules (R46, R85; the schedule is the model's, entry 1) -/

theorem run_succ_of_next (k : Nat) {s t : State} (h : step s = .next t) :
    Host.Core.run core (k + 1) s = Host.Core.run core k t := by
  have hcore : core.step s = .next t := h
  simp only [Host.Core.run, hcore]

/-- The step that finds a well-formed instruction's record runs it and leaves the rest waiting (R46). -/
theorem step_of_encoded (i : Instr) (hwf : i.wf = true) (rest : List Bytes) {s t : State}
    (hin : s.inputs = encode i :: rest) (he : exec i s = .next t) : step s = .next (t.withInputs rest) :=
  (step_of_decode_ok s (encode i) rest i hin (decode_encode i hwf)).trans (exec_withInputs i s t rest he)

/-- Settles O13, by induction on the instructions; that a row runs alike whatever waits is `exec_withInputs`. -/
theorem scheduleRunsInOrder : Obligations.ScheduleRunsInOrder := by
  intro is rest s hwf hin
  induction is generalizing s with
  | nil => rw [List.map_nil, List.nil_append] at hin; subst hin; rfl
  | cons i is ih =>
    obtain ⟨t, he⟩ := exec_next i s
    have hstep : step s = .next (t.withInputs (is.map encode ++ rest)) :=
      step_of_encoded i (hwf i List.mem_cons_self) _ hin he
    have hrest : Host.Core.run core is.length (t.withInputs (is.map encode ++ rest)) = execAll is (t.withInputs rest) :=
      ih (t.withInputs (is.map encode ++ rest)) (fun j hj => hwf j (List.mem_cons_of_mem i hj)) rfl
    have hall : execAll (i :: is) (s.withInputs rest) = execAll is (t.withInputs rest) :=
      execAll_cons_of_next is (exec_withInputs i s t rest he)
    exact ((run_succ_of_next is.length hstep).trans hrest).trans hall.symm

/-! ### The sizes of encoded frames (R43, R51, R55) -/

theorem enc_length (code s : Byte) (payload : Bytes) :
    (enc code s payload).length = if code = cmdAck then 5 else 6 + payload.length := by
  split_ifs with hc
  · rw [hc, enc_ack]; rfl
  · rw [enc_eq_stdFrame code s payload hc, stdFrame_length, Nat.add_comm]

/-- Settles O4: `isFrame_enc` for completeness, `enc_length` for the sizes. -/
theorem encodedFrameSizes : Obligations.EncodedFrameSizes := by
  intro c s payload hlen
  have hsize := enc_length c s payload
  refine ⟨isFrame_enc c s payload hlen, hsize, ?_⟩
  rw [hsize]
  split_ifs <;> omega

end Sys2Proof.Machine
end

section
/-! SUPPORT. Every complete frame has one of the two forms (R51), and a record that decodes is the encoding of what it
decodes to, port by port (R65; the record layout is the model's, entry 2). -/

namespace Sys2Proof.Machine

/-! ### The two forms of a complete frame (R51) -/

/-- The length byte tells the forms apart: at 0 nothing follows the fifth byte, above 0 a payload and a checksum do. -/
theorem isFrame_forms (f : Bytes) (h : isFrame f = true) :
    (∃ m0 m1 cmd chk, f = shortFrame m0 m1 cmd chk) ∨
    (∃ m0 m1 cmd len seqno payload chk, payload.length + 1 = len.toNat ∧
      f = stdFrame m0 m1 cmd len seqno payload chk) := by
  obtain ⟨hmin, htotal⟩ := (isFrame_iff f).mp h
  match f with
  | m0 :: m1 :: cmd :: len :: x :: rest =>
    simp only [frameTotal, lenByte_cons4, List.length_cons] at htotal
    rcases List.eq_nil_or_concat' rest with rfl | ⟨payload, chk, rfl⟩
    · have hlen : len = 0x00 := BitVec.eq_of_toNat_eq (by simpa using htotal.symm)
      exact .inl ⟨m0, m1, cmd, x, by rw [hlen]; rfl⟩
    · rw [List.length_append, List.length_singleton] at htotal
      exact .inr ⟨m0, m1, cmd, len, x, payload, chk, by omega, rfl⟩

/-! ### Port by port -/

theorem encode_of_decodeReceive (body : Bytes) (i : Instr) (h : decodeReceive body = .ok i) :
    encode i = portReceive :: body := by
  unfold decodeReceive at h
  split at h
  · cases h; rfl
  · cases h

theorem encode_of_decodeReset (body : Bytes) (i : Instr) (h : decodeReset body = .ok i) :
    encode i = portReset :: body := by
  unfold decodeReset at h
  split at h
  · next b =>
    split_ifs at h with hb
    cases h
    rw [hb]; rfl
  · cases h

/-- `exp_valid` is one of the two bytes that `bitByte` writes, and `plen` counts the payload. -/
theorem encode_of_decodeSubmit (args : Bytes) (i : Instr) (h : decodeSubmit args = .ok i) :
    encode i = portHost :: 0x00 :: args := by
  unfold decodeSubmit at h
  split at h
  · next code ev exp plen payload =>
    split_ifs at h with hl hoff hon
    · cases h; rw [hoff]; rfl
    · cases h; rw [hon]; rfl
  · cases h

/-- The two bits kept of a reserved selector give the selector back (R66). -/
theorem reservedSelector_setWidth (op : Byte) (hlow : 4 ≤ op.toNat) (hhigh : op.toNat < 8) :
    reservedSelector (op.setWidth 2) = op := by
  apply BitVec.eq_of_toNat_eq
  rw [reservedSelector_toNat, BitVec.toNat_setWidth]
  omega

theorem encode_of_decodeBare (i j : Instr) (op : Byte) (args : Bytes) (hi : encode i = [portHost, op])
    (h : decodeBare i args = .ok j) : encode j = portHost :: op :: args := by
  obtain ⟨rfl, rfl⟩ := (decodeBare_ok i j args).mp h
  exact hi

theorem encode_of_decodeHost (body : Bytes) (i : Instr) (h : decodeHost body = .ok i) :
    encode i = portHost :: body := by
  unfold decodeHost at h
  split at h
  · cases h
  · next op args =>
    split_ifs at h with h0 h1 h2 h3 hop
    · rw [h0]; exact encode_of_decodeSubmit args i h
    · rw [h1]; exact encode_of_decodeBare .takeResult i 0x01 args rfl h
    · rw [h2]; exact encode_of_decodeBare .status i 0x02 args rfl h
    · rw [h3]; exact encode_of_decodeBare .drain i 0x03 args rfl h
    · cases h
      have hlow : 4 ≤ op.toNat := by bv_omega
      rw [encode, reservedSelector_setWidth op hlow hop]

/-- A layout record is a complete frame, and its form names the row (R51). -/
theorem encode_of_decodeFrame (f : Bytes) (i : Instr) (h : decodeFrame f = .ok i) : encode i = portFrame :: f := by
  have hf : isFrame f = true := by
    by_contra hf
    have herr : decodeFrame f = .error .notAFrame := if_neg hf
    exact nomatch herr.symm.trans h
  rcases isFrame_forms f hf with ⟨m0, m1, cmd, chk, rfl⟩ | ⟨m0, m1, cmd, len, seqno, payload, chk, hlen, rfl⟩
  · rw [decodeFrame_shortFrame] at h
    cases h; rfl
  · rw [decodeFrame_stdFrame m0 m1 cmd len seqno payload chk hlen] at h
    cases h; rfl

theorem encode_of_decodeRouter (f : Bytes) (i : Instr) (h : decodeRouter f = .ok i) :
    encode i = portRouter :: f := by
  unfold decodeRouter at h
  split_ifs at h
  · cases h; rfl
  · cases h; rfl

theorem encode_of_decodeData (row : Bytes → Instr) (port : Byte) (f : Bytes) (i : Instr)
    (hrow : encode (row f) = port :: f) (h : decodeData row f = .ok i) : encode i = port :: f := by
  unfold decodeData at h
  split_ifs at h
  cases h
  exact hrow

/-- The decoder accepts a command frame only when the encoder builds it from the operands read (R72). -/
theorem encode_of_decodeTransmit (f : Bytes) (i : Instr) (h : decodeTransmit f = .ok i) :
    encode i = portTransmit :: f := by
  unfold decodeTransmit at h
  split at h
  · next hack => cases h; rw [hack]; rfl
  · split at h
    · split_ifs at h with henc hwf
      cases h
      exact congrArg (portTransmit :: ·) henc.symm
    · cases h

theorem encode_of_decode (r : Bytes) (i : Instr) (h : decode r = .ok i) : encode i = r := by
  cases r with
  | nil => cases h
  | cons port body =>
    rcases port_of_decode port body i h with rfl | rfl | rfl | rfl | rfl | rfl | rfl | rfl
    · exact encode_of_decodeReceive body i h
    · exact encode_of_decodeReset body i h
    · exact encode_of_decodeHost body i h
    · exact encode_of_decodeFrame body i h
    · exact encode_of_decodeRouter body i h
    · exact encode_of_decodeData .dataMatched portMatched body i rfl h
    · exact encode_of_decodeData .dataUnmatched portUnmatched body i rfl h
    · exact encode_of_decodeTransmit body i h

end Sys2Proof.Machine
end

section
/-! SUPPORT. The router row of a completed frame does what the router does, so completing a frame is what R81 says of
it. -/

namespace Sys2Proof.Machine

/-- The router's entry test reads the frame alone: two actions that agree on the state agree behind it (R86). -/
theorem whenRouted_congr (p : Params) (f : Bytes) {g g' : State → State} {s : State} (e : g s = g' s) :
    whenRouted p f g s = whenRouted p f g' s := by rw [whenRouted, whenRouted, e]

/-- The row that R63 and R87 name for a completed frame runs the router on it (R86). -/
theorem exec_routerRow (f : Bytes) (s : State) : exec (routerRow f s) s = .next (route Config.params f s) := by
  by_cases hpoll : cmdByte f = cmdPoll
  · have hd : dispatch Config.params (dec f) s = onPoll s := by rw [dispatch, dec_cmd, if_pos hpoll]
    rw [routerRow, if_pos hpoll, exec_poll, route, whenRouted_congr _ f hd]
  by_cases hack : cmdByte f = cmdAck
  · have hd : dispatch Config.params (dec f) s = onAck s := by rw [dispatch, dec_cmd, if_neg hpoll, if_pos hack]
    rw [routerRow, if_neg hpoll, if_pos hack, exec_ack, route, whenRouted_congr _ f hd]
  have hd := dispatch_data Config.params (dec f) s (by rw [dec_cmd]; exact (isDataCmd_iff _).mpr ⟨hpoll, hack⟩)
  rw [dec_cmd] at hd
  rw [routerRow, if_neg hpoll, if_neg hack]
  cases hx : s.expects (cmdByte f) with
  | true =>
    rw [if_pos hx] at hd
    rw [if_pos rfl, exec_dataMatched, route, whenRouted_congr _ f hd]
  | false =>
    rw [hx, if_neg Bool.false_ne_true] at hd
    rw [if_neg Bool.false_ne_true, exec_dataUnmatched, route, whenRouted_congr _ f hd]

/-- R81, in the terms of the statements: the router row runs on the emptied buffer, and the record is logged. -/
theorem completesBy_completeFrame (f : Bytes) (s : State) :
    CompletesBy f s (.next (completeFrame Config.params f s)) := by
  obtain ⟨hbuf, hlog, hhost, hin⟩ := route_frame Config.params f (s.setRxbuf [])
  refine ⟨route Config.params f (s.setRxbuf []), frameRec Config.params f, exec_routerRow f (s.setRxbuf []),
    rfl, rfl, routes_iff Config.params (verify f), hbuf, hlog, hhost, hin, ?_⟩
  rw [completeFrame, State.logRx, hlog]; rfl

end Sys2Proof.Machine
end

section
/-! PROOFS. The statements of 30_encoding.md: records and instructions stand for each other, the layout rows are
completions, and the two transmitted frames. -/

namespace Sys2Proof.Machine

/-- Settles O7: `decode_encode`. -/
theorem decodeAfterEncode : Obligations.DecodeAfterEncode := decode_encode

/-- Settles O8: no port's decoder drops a bit of its record. -/
theorem encodeAfterDecode : Obligations.EncodeAfterDecode :=
  fun r i h => ⟨wf_of_decode r i h, encode_of_decode r i h⟩

/-- Settles O17: each layout row completes the bytes of its form, whatever the length byte says. -/
theorem layoutRowsComplete : Obligations.LayoutRowsComplete := by
  constructor
  · intro s m0 m1 cmd len seqno chk payload _
    rw [exec_frameStd]
    exact completesBy_completeFrame (stdFrame m0 m1 cmd len seqno payload chk) s
  · intro s m0 m1 cmd chk
    rw [exec_frameShort]
    exact completesBy_completeFrame (shortFrame m0 m1 cmd chk) s

/-- Settles O9: each record is the encoding of its row; the two table words are evaluated. -/
theorem decodesWrittenWords : Obligations.DecodesWrittenWords :=
  ⟨decode_encode (.rxByte 0xFA) rfl,
    decode_encode (.submit 0x03 true 0x04 0x02 [0x00, 0x0A]) rfl,
    decode_encode (.reservedOp 1 []) rfl,
    decode_encode (.frameStd 0xFA 0xFB 0x53 0x01 0x01 [] 0x52) rfl,
    decode_encode (.poll [0xFA, 0xFB, 0x41, 0x00, 0x40]) rfl,
    decode_encode .txAck rfl, rfl, rfl⟩

/-- Settles O37: `enc_ack` for the bytes, and the row appends them. -/
theorem transmitAck : Obligations.TransmitAck := ⟨enc_ack, exec_txAck⟩

/-- Settles O38: for every code but the ACK's the encoder builds the command frame of R72. -/
theorem transmitCommand : Obligations.TransmitCommand := by
  intro code seq payload s hcode _
  rw [exec_txCmd, enc_of_ne code seq payload hcode]
  rfl

end Sys2Proof.Machine
end

section
/-! PROOFS. The statements of 40_codec.md: the checksum, the encoder and the decoder; and what `CHECK_POLICY` makes of
a completed frame (R76, R86). -/

namespace Sys2Proof.Machine

/-! ### The checksum (R69) -/

theorem chkOf_concat (l : Bytes) (b : Byte) : chkOf (l ++ [b]) = chkOf l ^^^ b := by
  rw [chkOf_append, chkOf_singleton]

/-- Two neighbours may change places, since exclusive-or commutes. -/
theorem chkOf_perm {l m : Bytes} (h : l.Perm m) : chkOf l = chkOf m := by
  induction h with
  | nil => rfl
  | cons b _ ih => rw [chkOf_cons, chkOf_cons, ih]
  | swap a b l => simp only [chkOf_cons]; ac_rfl
  | trans _ _ ih₁ ih₂ => exact ih₁.trans ih₂

theorem chkOf_cons_cons_self (b : Byte) (l : Bytes) : chkOf (b :: b :: l) = chkOf l := by
  rw [chkOf_cons, chkOf_cons, ← BitVec.xor_assoc, BitVec.xor_self, BitVec.zero_xor]

/-- An altered byte trades its place in the sum with the byte it replaces. -/
theorem chkOf_set (f : Bytes) (k : Nat) (b : Byte) (h : k < f.length) :
    chkOf (f.set k b) ^^^ f[k] = chkOf f ^^^ b := by
  induction f generalizing k with
  | nil => exact absurd h (Nat.not_lt_zero k)
  | cons a f ih =>
    cases k with
    | zero =>
      rw [List.set_cons_zero, List.getElem_cons_zero, chkOf_cons, chkOf_cons]
      ac_rfl
    | succ k =>
      have hk : k < f.length := Nat.lt_of_succ_lt_succ h
      rw [List.set_cons_succ, List.getElem_cons_succ, chkOf_cons, chkOf_cons, BitVec.xor_assoc, ih k hk,
        BitVec.xor_assoc]

/-- Settles O1: `chkOf` of each form of list, and the rule's two worked values. -/
theorem checksumIsExclusiveOr : Obligations.ChecksumIsExclusiveOr :=
  ⟨chkOf_nil, chkOf_concat, fun _ _ => chkOf_perm, fun l b => chkOf_cons_cons_self b l, by decide, by decide⟩

/-! ### The verifier (R70, R75) -/

/-- The last byte equals the sum of the others exactly when it cancels that sum. -/
theorem verify_iff_chkOf_eq_zero (f : Bytes) : verify f = true ↔ chkOf f = 0x00 := by
  rw [verify_iff]
  rcases List.eq_nil_or_concat' f with rfl | ⟨l, b, rfl⟩
  · exact iff_of_true rfl rfl
  · rw [List.dropLast_concat, List.getLastD_concat, chkOf_concat]
    exact BitVec.xor_eq_zero_iff.symm

/-- Settles O2: the verifier passes on every encoded frame (`verify_enc`), and that is the law in both its forms. -/
theorem encodedFrameChecksumLaw : Obligations.EncodedFrameChecksumLaw :=
  ⟨fun code s payload =>
    have hver : verify (enc code s payload) = true := verify_enc code s payload
    ⟨(verify_iff _).mp hver, (verify_iff_chkOf_eq_zero _).mp hver⟩, by decide⟩

/-- Settles O5: were the altered frame verified too, both sums would be 0, and the two bytes equal by `chkOf_set`. -/
theorem alteredByteFailsVerification : Obligations.AlteredByteFailsVerification := by
  intro f k b _ hver hk hne
  refine Bool.eq_false_iff.mpr fun hver' => hne ?_
  have htrade : chkOf (f.set k b) ^^^ f[k] = chkOf f ^^^ b := chkOf_set f k b hk
  rw [(verify_iff_chkOf_eq_zero f).mp hver, (verify_iff_chkOf_eq_zero _).mp hver'] at htrade
  exact (BitVec.xor_right_inj _).mp htrade

/-! ### The decoder (R74, R77) -/

theorem dec_stdFrame (m0 m1 cmd len seqno : Byte) (payload : Bytes) (chk : Byte)
    (h : payload.length + 1 = len.toNat) :
    dec (stdFrame m0 m1 cmd len seqno payload chk) =
      { raw := stdFrame m0 m1 cmd len seqno payload chk
        cmd := cmd
        len := len.toNat
        seqno := some seqno
        payload := payload
        chk := chk } := by
  have hlen : len ≠ 0 := by rintro rfl; exact absurd h (Nat.succ_ne_zero _)
  have hlenByte : lenByte (stdFrame m0 m1 cmd len seqno payload chk) = len := rfl
  have hpayload : ((stdFrame m0 m1 cmd len seqno payload chk).drop 5).take (len.toNat - 1) = payload :=
    List.take_left' (by omega)
  have hchk : (stdFrame m0 m1 cmd len seqno payload chk).getD (len.toNat + 4) 0 = chk := by
    rw [← h]; simp [stdFrame]
  rw [dec, hlenByte, if_neg hlen, hpayload, hchk]
  rfl

theorem dec_shortFrame (m0 m1 cmd chk : Byte) :
    dec (shortFrame m0 m1 cmd chk) =
      { raw := shortFrame m0 m1 cmd chk, cmd := cmd, len := 0, seqno := none, payload := [], chk := chk } := rfl

/-- Settles O6: one lemma per form of a frame. -/
theorem decoderFields : Obligations.DecoderFields :=
  ⟨fun m0 m1 cmd len seqno chk payload => dec_stdFrame m0 m1 cmd len seqno payload chk, dec_shortFrame⟩

/-- Settles O3: a command frame is a standard form and the ACK frame a short one, so O6 gives the fields. -/
theorem decodeOfEncodedFrame : Obligations.DecodeOfEncodedFrame := by
  constructor
  · intro c s payload hc hlen
    have htx : (txLen payload).toNat = 1 + payload.length := txLen_toNat payload hlen
    refine ⟨?_, verify_enc c s payload⟩
    rw [enc_eq_stdFrame c s payload hc, dec_stdFrame _ _ _ _ _ _ _ (by rw [htx, Nat.add_comm]), htx]
    rfl
  · intro s payload
    have hack : enc 0x42 s payload = shortFrame 0xFA 0xFB 0x42 0x43 := enc_ack s payload
    refine ⟨?_, verify_enc 0x42 s payload⟩
    rw [hack, dec_shortFrame]

/-! ### The check policy (R76, R86) -/

theorem routes_of_failed_drop {p : Params} {f : Bytes} (hdrop : p.checkPolicy = .drop) (hver : verify f = false) :
    routes p (verify f) = false := by
  simp [routes, hdrop, hver]

theorem whenRouted_no (p : Params) (f : Bytes) (g : State → State) (s : State)
    (h : routes p (verify f) = false) : whenRouted p f g s = s := by
  rw [whenRouted, h, if_neg Bool.false_ne_true]

/-- Settles O31: under `Drop` a failing frame leaves only its record; in the other cases the router dispatches it. -/
theorem checkPolicyOfCompletedFrame : Obligations.CheckPolicyOfCompletedFrame := by
  constructor
  · intro p f s hdrop hver
    have hroutes : routes p (verify f) = false := routes_of_failed_drop hdrop hver
    rw [completeFrame, route, whenRouted_no p f _ _ hroutes, frameRec, hroutes, hver]
    rfl
  · intro p f s h
    have hroutes : routes p (verify f) = true := (routes_iff p _).mpr h.symm
    rw [completeFrame, route, whenRouted_yes p f _ _ h.symm, frameRec, hroutes]
    rfl

/-- Settles O32: under `Drop` no row's action passes the router's entry test on a failing frame. -/
theorem unroutedFrameWritesNothing : Obligations.UnroutedFrameWritesNothing := by
  intro f s hver
  cases hpolicy : Config.checkPolicy with
  | ignore => exact .inl rfl
  | drop =>
    have hroutes : routes Config.params (verify f) = false := routes_of_failed_drop hpolicy hver
    refine .inr ⟨rfl, ?_, ?_, ?_, ?_⟩
    · rw [exec_poll, whenRouted_no _ f _ s hroutes]
    · rw [exec_ack, whenRouted_no _ f _ s hroutes]
    · rw [exec_dataMatched, whenRouted_no _ f _ s hroutes]
    · rw [exec_dataUnmatched, whenRouted_no _ f _ s hroutes]

end Sys2Proof.Machine
end

section
/-! PROOFS. The statements of 41_frame_reader.md: the three outcomes of a received byte, each under its own condition,
and the run of bytes that carries a clean frame. -/

namespace Sys2Proof.Machine

/-! ### One received byte, by its case (R79 to R81) -/

/-- A marker pair is tested for before completion (R79, R83). -/
theorem receive_of_marker (p : Params) (s : State) (h : s.rxbuf.getLast? = some marker0) :
    receive p marker1 s = s.setRxbuf marker := by
  have hm : endsWithMarker (s.rxbuf ++ [marker1]) = true := (endsWithMarker_append _ _).mpr ⟨h, rfl⟩
  rcases receive_cases p marker1 s with ⟨-, -, e⟩ | ⟨hm', -, -⟩ | ⟨hm', -, -⟩
  · exact e
  · exact nomatch hm.symm.trans hm'
  · exact nomatch hm.symm.trans hm'

theorem receive_of_frame (p : Params) (b : Byte) (s : State)
    (hpair : ¬ (s.rxbuf.getLast? = some marker0 ∧ b = marker1)) (hf : isFrame (s.rxbuf ++ [b]) = true) :
    receive p b s = completeFrame p (s.rxbuf ++ [b]) s := by
  rcases receive_cases p b s with ⟨hlast, hb, -⟩ | ⟨-, -, e⟩ | ⟨-, hf', -⟩
  · exact absurd ⟨hlast, hb⟩ hpair
  · exact e
  · exact nomatch hf.symm.trans hf'

theorem receive_of_unfinished (p : Params) (b : Byte) (s : State)
    (hpair : ¬ (s.rxbuf.getLast? = some marker0 ∧ b = marker1)) (hf : isFrame (s.rxbuf ++ [b]) = false) :
    receive p b s = s.setRxbuf (s.rxbuf ++ [b]) := by
  rcases receive_cases p b s with ⟨hlast, hb, -⟩ | ⟨-, hf', -⟩ | ⟨-, -, e⟩
  · exact absurd ⟨hlast, hb⟩ hpair
  · exact nomatch hf.symm.trans hf'
  · exact e

/-- The total of R80, in the buffer's length before the append. -/
theorem isFrame_concat_iff (l : Bytes) (b : Byte) :
    isFrame (l ++ [b]) = true ↔ 5 ≤ l.length + 1 ∧ l.length + 1 = ((l ++ [b]).getD 3 0).toNat + 5 := by
  rw [isFrame_iff, List.length_append, List.length_singleton, frameTotal, lenByte]
  omega

/-- Settles O14: `receive_of_marker`. -/
theorem markerPairResynchronizes : Obligations.MarkerPairResynchronizes :=
  fun s hlast => congrArg Host.Outcome.next (receive_of_marker Config.params s hlast)

/-- Settles O15: `receive_of_unfinished`, with the length test read off `isFrame`. -/
theorem unfinishedFrameKeepsByte : Obligations.UnfinishedFrameKeepsByte := by
  intro s b hpair hlen
  have hf : isFrame (s.rxbuf ++ [b]) = false := by
    rw [Bool.eq_false_iff, Ne, isFrame_concat_iff]
    omega
  exact congrArg Host.Outcome.next (receive_of_unfinished Config.params b s hpair hf)

/-- Settles O16: the byte completes the frame (`receive_of_frame`), and a completion is what R81 says of it. -/
theorem completedFrameIsRoutedAndLogged : Obligations.CompletedFrameIsRoutedAndLogged := by
  intro s b hpair hmin htotal
  have hf : isFrame (s.rxbuf ++ [b]) = true := (isFrame_concat_iff _ _).mpr ⟨hmin, htotal⟩
  rw [exec_rxByte, receive_of_frame Config.params b s hpair hf]
  exact completesBy_completeFrame _ s

/-! ### A clean frame, byte by byte (R85) -/

theorem rxAll_cons (b : Byte) (l : Bytes) (s : State) :
    rxAll (b :: l) s = rxAll l (receive Config.params b s) := rfl

theorem hasMarker_cons_cons_eq_false (a b : Byte) (l : Bytes) :
    hasMarker (a :: b :: l) = false ↔ ¬ (a = marker0 ∧ b = marker1) ∧ hasMarker (b :: l) = false := by
  simp [hasMarker]

/-- What a frame begins with is no frame: from its fourth byte on it declares the same total (R80, R84). -/
theorem isFrame_eq_false_of_append (f g : Bytes) (h : isFrame (f ++ g) = true) (hg : g ≠ []) :
    isFrame f = false := by
  obtain ⟨-, htotal⟩ := (isFrame_iff _).mp h
  rw [Bool.eq_false_iff, Ne, isFrame_iff]
  rintro ⟨hmin, hf⟩
  have hpos : 0 < g.length := List.length_pos_iff.mpr hg
  rw [frameTotal_append f g (by omega), List.length_append] at htotal
  omega

/-- The marker, received, is all that the buffer holds, unless its first byte completed the older buffer (R79). -/
theorem rxAll_marker (l : Bytes) (s : State) (h : isFrame (s.rxbuf ++ [marker0]) = false) :
    rxAll (marker0 :: marker1 :: l) s = rxAll l (s.setRxbuf marker) := by
  have hfirst : receive Config.params marker0 s = s.setRxbuf (s.rxbuf ++ [marker0]) :=
    receive_of_unfinished Config.params marker0 s (fun hpair => absurd hpair.2 (by decide)) h
  have hlast : (s.setRxbuf (s.rxbuf ++ [marker0])).rxbuf.getLast? = some marker0 := List.getLast?_concat
  rw [rxAll_cons, hfirst, rxAll_cons, receive_of_marker Config.params _ hlast]
  rfl

/-- The rest of a frame, received when the buffer ends in `a`, with no marker pair from `a` on: each byte but the last
is kept, and the last completes the frame. By induction on the bytes still to come. -/
theorem rxAll_completes (a b : Byte) (rest : Bytes) (s : State) (hlast : s.rxbuf.getLast? = some a)
    (hf : isFrame (s.rxbuf ++ b :: rest) = true) (hclean : hasMarker (a :: b :: rest) = false) :
    rxAll (b :: rest) s = .next (completeFrame Config.params (s.rxbuf ++ b :: rest) s) := by
  induction rest generalizing a b s with
  | nil =>
    obtain ⟨hpair, -⟩ := (hasMarker_cons_cons_eq_false a b []).mp hclean
    rw [rxAll_cons, receive_of_frame Config.params b s (by simpa [hlast] using hpair) hf]
    rfl
  | cons c rest ih =>
    obtain ⟨hpair, hclean'⟩ := (hasMarker_cons_cons_eq_false a b (c :: rest)).mp hclean
    rw [List.append_cons] at hf ⊢
    have hkept : isFrame (s.rxbuf ++ [b]) = false := isFrame_eq_false_of_append _ _ hf (List.cons_ne_nil c rest)
    rw [rxAll_cons, receive_of_unfinished Config.params b s (by simpa [hlast] using hpair) hkept]
    exact ih b c (s.setRxbuf (s.rxbuf ++ [b])) List.getLast?_concat hf hclean'

/-- Settles O18: the marker empties the buffer down to itself (`rxAll_marker`), and the bytes after it complete the
frame (`rxAll_completes`). -/
theorem cleanFrameIsReceived : Obligations.CleanFrameIsReceived := by
  intro s body hf hclean hold
  cases body with
  | nil => cases hf
  | cons b rest =>
    have hrun : rxAll (0xFA :: 0xFB :: b :: rest) s =
        .next (completeFrame Config.params (0xFA :: 0xFB :: b :: rest) s) :=
      (rxAll_marker (b :: rest) s hold).trans (rxAll_completes 0xFB b rest (s.setRxbuf marker) rfl hf hclean)
    rw [hrun]
    exact completesBy_completeFrame _ s

end Sys2Proof.Machine
end

section
/-! PROOFS. The statements of 42_dispatch_router.md: each case of R88 to R96 as the state it leaves, the sequence
successor (R97), the router's laws (R98), and the idle block after RESET (R122). -/

namespace Sys2Proof.Machine

/-! ### The sequence successor (R97) -/

theorem adv_toNat_of_ne (n : Byte) (h : n ≠ 255) : (adv n).toNat = n.toNat + 1 := by
  rw [adv_of_ne n h]
  bv_omega

/-- `adv` counts modulo 255, shifted by one. -/
theorem adv_toNat (n : Byte) : (adv n).toNat = n.toNat % 255 + 1 := by
  by_cases hmax : n = 255
  · subst hmax; rfl
  · rw [adv_toNat_of_ne n hmax]
    bv_omega

theorem adv_iterate_toNat (n : Byte) (h : n ≠ 0) (k : Nat) :
    (adv^[k] n).toNat = (n.toNat - 1 + k) % 255 + 1 := by
  induction k with
  | zero => rw [Function.iterate_zero_apply]; bv_omega
  | succ k ih => rw [Function.iterate_succ_apply', adv_toNat, ih]; omega

theorem adv_iterate_period (n : Byte) (h : n ≠ 0) : adv^[255] n = n := by
  have hsum := adv_iterate_toNat n h 255
  bv_omega

/-- Settles O34: the period is that of counting modulo 255 (`adv_iterate_toNat`). -/
theorem sequenceSuccessor : Obligations.SequenceSuccessor :=
  ⟨adv_max, rfl, rfl, adv_toNat_of_ne, adv_ne_zero, adv_iterate_period⟩

/-! ### POLL (R88 to R91) -/

/-- A command is due unless its data frame is awaited (R87). -/
theorem Pending.due_of_st {x : Pending} (h : x.st = .awaitingPoll ∨ x.st = .sentAwaitingAck) :
    x.st ≠ .ackReceivedAwaitingData := by
  rcases h with h | h <;> rw [h] <;> decide

/-- Settles O20: `onPoll_of_no_pending`. -/
theorem pollWithNothingPending : Obligations.PollWithNothingPending := by
  intro f s hf hpend
  rw [exec_poll_of_routed f s hf, onPoll_of_no_pending s hpend]
  rfl

/-- Settles O21: `onPoll_of_data_awaited`. -/
theorem pollWhileDataAwaited : Obligations.PollWhileDataAwaited := by
  intro f s x hf hpend hst
  rw [exec_poll_of_routed f s hf, onPoll_of_data_awaited s x hpend hst]
  rfl

/-- Settles O22: the command is due, and retries remain (`sendOrFail_send`). -/
theorem pollTransmitsCommand : Obligations.PollTransmitsCommand := by
  intro f s x hf hpend hst hr
  rw [exec_poll_of_routed f s hf, onPoll_of_due s x hpend (Pending.due_of_st hst), sendOrFail_send x s hr]
  rfl

/-- Settles O23: the command is due, and no retry remains (`sendOrFail_fail`). -/
theorem pollFailsSpentTransaction : Obligations.PollFailsSpentTransaction := by
  intro f s x hf hpend hst hr
  rw [exec_poll_of_routed f s hf, onPoll_of_due s x hpend (Pending.due_of_st hst),
    sendOrFail_fail x s (Nat.not_lt.mpr hr)]
  rfl

/-! ### ACK (R92, R93, R96) -/

theorem exec_ack_of_routed (f : Bytes) (s : State) (h : Routed f) : exec (.ack f) s = .next (onAck s) := by
  rw [exec_ack, whenRouted_yes Config.params f onAck s h]

/-- Routed or not, an ACK that finds no sent command changes nothing (R96). -/
theorem exec_ack_of_not_sent (f : Bytes) (s : State) (h : ∀ x, s.pend = some x → x.st ≠ .sentAwaitingAck) :
    exec (.ack f) s = .next s := by
  rw [exec_ack, whenRouted_of_eq_self _ f _ s (onAck_of_not_sent s h)]

/-- Settles O24: `ackSent_some`. -/
theorem ackAwaitsData : Obligations.AckAwaitsData := by
  intro f s x c hf hpend hst hexp
  rw [exec_ack_of_routed f s hf, onAck_of_sent s x hpend hst, ackSent_some x s c hexp]
  rfl

/-- Settles O25: `ackSent_none`. -/
theorem ackOnlyCompletion : Obligations.AckOnlyCompletion := by
  intro f s x hf hpend hst hexp
  rw [exec_ack_of_routed f s hf, onAck_of_sent s x hpend hst, ackSent_none x s hexp]
  rfl

/-- Settles O26: `exec_ack_of_not_sent`. -/
theorem ackIgnoredOtherwise : Obligations.AckIgnoredOtherwise := exec_ack_of_not_sent

/-! ### DATA (R94, R95) -/

theorem exec_dataMatched_of_routed (f : Bytes) (s : State) (h : Routed f) (hx : s.expects (cmdByte f) = true) :
    exec (.dataMatched f) s = .next (matchedState (dec f).payload s) := by
  rw [exec_dataMatched, whenRouted_yes Config.params f _ s h,
    matchedCase_of_expects (dec f) s (by rw [dec_cmd]; exact hx), onMatched_eq]

theorem exec_dataUnmatched_of_routed (f : Bytes) (s : State) (h : Routed f) (hx : s.expects (cmdByte f) = false) :
    exec (.dataUnmatched f) s = .next (onUnmatched Config.params (cmdByte f) (dec f).payload s) := by
  rw [exec_dataUnmatched, whenRouted_yes Config.params f _ s h,
    unmatchedCase_of_not_expects Config.params (dec f) s (by rw [dec_cmd]; exact hx), dec_cmd]

/-- `onUnmatched_cases` as one equation: the queue's room decides the two event fields, and nothing else (R95). -/
theorem onUnmatched_eq (p : Params) (c : Byte) (payload : Bytes) (s : State) :
    onUnmatched p c payload s =
      { s with
        tx := s.tx ++ ackFrame
        evq := if hasRoom p s.evq.length then s.evq ++ [{ code := c, payload := payload }] else s.evq
        evqOvf := if hasRoom p s.evq.length then s.evqOvf else true
        seq := adv s.seq } := by
  rcases onUnmatched_cases p c payload s with ⟨hroom, e⟩ | ⟨hroom, e⟩ <;> rw [e, hroom] <;> rfl

/-- Settles O27. -/
theorem matchedDataCompletes : Obligations.MatchedDataCompletes := by
  intro f s x _ hf hpend hexp
  rw [exec_dataMatched_of_routed f s hf ((expects_iff s _).mpr ⟨x, hpend, hexp⟩)]
  rfl

/-- Settles O28: `onUnmatched_eq`. -/
theorem unmatchedDataQueued : Obligations.UnmatchedDataQueued := by
  intro f s _ hf hpend
  rw [exec_dataUnmatched_of_routed f s hf ((expects_eq_false_iff s _).mpr hpend), onUnmatched_eq]
  rfl

/-! ### After RESET (R122) -/

/-- An empty queue has room, whatever its depth (R11). -/
theorem hasRoom_of_evq_nil (p : Params) (s : State) (h : s.evq = []) : hasRoom p s.evq.length = true := by
  rw [h]; exact hasRoom_zero p

/-- So the first event is always queued (R95). -/
theorem onUnmatched_of_evq_nil (p : Params) (c : Byte) (payload : Bytes) (s : State) (h : s.evq = []) :
    onUnmatched p c payload s =
      { s with tx := s.tx ++ ackFrame, evq := [{ code := c, payload := payload }], seq := adv s.seq } := by
  have hroom := hasRoom_of_evq_nil p s h
  rw [onUnmatched_eq, if_pos hroom, if_pos hroom, h, List.nil_append]

/-- Settles O47: RESET leaves nothing pending and no event queued, which decides each of the three rows. -/
theorem idleAfterReset : Obligations.IdleAfterReset := by
  intro s f hf _
  have hpend : (resetOp Config.params s).pend = none := resetOp_pend s Config.params
  have hnone : ∀ x, (resetOp Config.params s).pend ≠ some x := by simp
  refine ⟨resetOp Config.params s, exec_reset s, ?_, ?_, fun _ => ?_⟩
  · rw [exec_poll_of_routed f _ hf, onPoll_of_no_pending _ hpend]
    rfl
  · exact exec_ack_of_not_sent f _ fun x hx => absurd hx (hnone x)
  · rw [exec_dataUnmatched_of_routed f _ hf ((expects_eq_false_iff _ _).mpr fun x hx => absurd hx (hnone x)),
      onUnmatched_of_evq_nil _ _ _ _ (resetOp_evq s Config.params), resetOp_seq]

end Sys2Proof.Machine
end

section
/-! PROOFS. The router's laws (R98), each first as a law of `route`. -/

namespace Sys2Proof.Machine

/-! ### The class of a routed frame, as equations (R86, R87) -/

theorem routed_iff_routes (f : Bytes) : Routed f ↔ routes Config.params (verify f) = true :=
  (routes_iff Config.params (verify f)).symm

theorem route_of_not_routed (f : Bytes) (s : State) (h : ¬ Routed f) : route Config.params f s = s :=
  whenRouted_no _ f _ s (by rwa [routed_iff_routes, Bool.not_eq_true] at h)

theorem route_poll (f : Bytes) (s : State) (h : Routed f) (hc : cmdByte f = cmdPoll) :
    route Config.params f s = onPoll s := by
  rw [route, whenRouted_yes Config.params f _ s h, dispatch, dec_cmd, if_pos hc]

theorem route_ack (f : Bytes) (s : State) (h : Routed f) (hc : cmdByte f = cmdAck) :
    route Config.params f s = onAck s := by
  rw [route, whenRouted_yes Config.params f _ s h, dispatch, dec_cmd, hc]
  rfl

theorem route_data (f : Bytes) (s : State) (h : Routed f) (hp : cmdByte f ≠ cmdPoll) (ha : cmdByte f ≠ cmdAck) :
    route Config.params f s = onData Config.params (cmdByte f) (dec f).payload s := by
  rw [route, whenRouted_yes Config.params f _ s h, dispatch, dec_cmd, if_neg hp, if_neg ha]

/-! ### What is transmitted (R98 (a) to (d)) -/

/-- A POLL is never met with silence: the command frame or the idle ACK answers it (R98 (a)). -/
theorem onPoll_tx (s : State) :
    (onPoll s).tx = s.tx ++ ackFrame ∨ ∃ x, s.pend = some x ∧ (onPoll s).tx = s.tx ++ enc x.code s.seq x.payload := by
  rcases onPoll_cases s with ⟨-, e⟩ | ⟨_, -, -, e⟩ | ⟨x, hpend, -, -, e⟩ | ⟨_, -, -, -, e⟩ <;> rw [e]
  · exact .inl rfl
  · exact .inl rfl
  · exact .inr ⟨x, hpend, rfl⟩
  · exact .inl rfl

/-- A DATA frame gets one idle ACK, whether it matches or not (R98 (b)). -/
theorem onData_tx (p : Params) (c : Byte) (payload : Bytes) (s : State) :
    (onData p c payload s).tx = s.tx ++ ackFrame := by
  rw [onData]
  split_ifs
  · rfl
  · rw [onUnmatched_frame]

/-! ### What `seq` and `result` become (R98 (e), (f)) -/

theorem onAck_seq (s : State) :
    (onAck s).seq = s.seq ∨
    (onAck s).seq = adv s.seq ∧ ∃ x, s.pend = some x ∧ x.st = .sentAwaitingAck ∧ x.expected = none := by
  rcases onAck_cases s with ⟨-, e⟩ | ⟨_, _, -, -, -, e⟩ | ⟨x, hpend, hst, hexp, e⟩ <;> rw [e]
  · exact .inl rfl
  · exact .inl rfl
  · exact .inr ⟨rfl, x, hpend, hst, hexp⟩

/-- Only the ack-only completion and the unmatched DATA case advance `seq`, each once (R98 (e)). -/
theorem route_seq (f : Bytes) (s : State) :
    (route Config.params f s).seq = s.seq ∨
    Routed f ∧ (route Config.params f s).seq = adv s.seq ∧
      ((cmdByte f = cmdAck ∧ ∃ x, s.pend = some x ∧ x.st = .sentAwaitingAck ∧ x.expected = none) ∨
       (cmdByte f ≠ cmdPoll ∧ cmdByte f ≠ cmdAck ∧ ∀ x, s.pend = some x → x.expected ≠ some (cmdByte f))) := by
  rcases route_cases Config.params f s with ⟨-, e⟩ | ⟨-, -, e⟩ | ⟨hr, hc, e⟩ | ⟨-, -, -, e⟩ | ⟨hr, hd, hx, e⟩ <;> rw [e]
  · exact .inl rfl
  · exact .inl (onPoll_keeps s).1
  · exact (onAck_seq s).imp_right fun ⟨hseq, hx⟩ => ⟨(routed_iff_routes f).mpr hr, hseq, .inl ⟨hc, hx⟩⟩
  · exact .inl rfl
  · obtain ⟨hp, ha⟩ := (isDataCmd_iff _).mp hd
    refine .inr ⟨(routed_iff_routes f).mpr hr, ?_, .inr ⟨hp, ha, (expects_eq_false_iff s _).mp hx⟩⟩
    rw [onUnmatched_frame]

theorem onPoll_result (s : State) :
    (onPoll s).result = s.result ∨
    (onPoll s).pend = none ∧ ∃ x, s.pend = some x ∧ x.st ≠ .ackReceivedAwaitingData ∧ 5 ≤ x.retries := by
  rcases onPoll_cases s with ⟨-, e⟩ | ⟨_, -, -, e⟩ | ⟨_, -, -, -, e⟩ | ⟨x, hpend, hst, hr, e⟩ <;> rw [e]
  · exact .inl rfl
  · exact .inl rfl
  · exact .inl rfl
  · exact .inr ⟨rfl, x, hpend, hst, Nat.le_of_not_lt hr⟩

theorem onAck_result (s : State) :
    (onAck s).result = s.result ∨
    (onAck s).pend = none ∧ ∃ x, s.pend = some x ∧ x.st = .sentAwaitingAck ∧ x.expected = none := by
  rcases onAck_cases s with ⟨-, e⟩ | ⟨_, _, -, -, -, e⟩ | ⟨x, hpend, hst, hexp, e⟩ <;> rw [e]
  · exact .inl rfl
  · exact .inl rfl
  · exact .inr ⟨rfl, x, hpend, hst, hexp⟩

/-- Only the three ends of a transaction write `result`, and each empties the slot (R98 (f)). -/
theorem route_result (f : Bytes) (s : State) :
    (route Config.params f s).result = s.result ∨
    Routed f ∧ (route Config.params f s).pend = none ∧ ∃ x, s.pend = some x ∧
      ((cmdByte f = cmdPoll ∧ x.st ≠ .ackReceivedAwaitingData ∧ 5 ≤ x.retries) ∨
       (cmdByte f = cmdAck ∧ x.st = .sentAwaitingAck ∧ x.expected = none) ∨
       (cmdByte f ≠ cmdPoll ∧ cmdByte f ≠ cmdAck ∧ x.expected = some (cmdByte f))) := by
  rcases route_cases Config.params f s with ⟨-, e⟩ | ⟨hr, hc, e⟩ | ⟨hr, hc, e⟩ | ⟨hr, hd, hx, e⟩ | ⟨-, -, -, e⟩ <;> rw [e]
  · exact .inl rfl
  · exact (onPoll_result s).imp_right fun ⟨hslot, x, hpend, hspent⟩ =>
      ⟨(routed_iff_routes f).mpr hr, hslot, x, hpend, .inl ⟨hc, hspent⟩⟩
  · exact (onAck_result s).imp_right fun ⟨hslot, x, hpend, hacked⟩ =>
      ⟨(routed_iff_routes f).mpr hr, hslot, x, hpend, .inr (.inl ⟨hc, hacked⟩)⟩
  · obtain ⟨hp, ha⟩ := (isDataCmd_iff _).mp hd
    obtain ⟨x, hpend, hexp⟩ := (expects_iff s _).mp hx
    exact .inr ⟨(routed_iff_routes f).mpr hr, rfl, x, hpend, .inr (.inr ⟨hp, ha, hexp⟩)⟩
  · rw [onUnmatched_frame]
    exact .inl rfl

/-- Settles O33: the byte completes the frame (`receive_of_frame`), and completion leaves `tx`, `seq`, `result` and the
slot as the router does on the emptied buffer, which no law reads. -/
theorem routerLaws : Obligations.RouterLaws := by
  intro s t b hpair hframe he f
  cases he
  rw [receive_of_frame Config.params b s hpair hframe, completeFrame_tx, completeFrame_seq, completeFrame_result,
    completeFrame_pend]
  refine ⟨fun hf hc => ?_, fun hf hp ha => ?_, fun hf hc => ?_, ?_, route_seq f _, route_result f _⟩
  · rw [route_poll f _ hf hc]
    exact onPoll_tx _
  · rw [route_data f _ hf hp ha]
    exact onData_tx _ _ _ _
  · rw [route_ack f _ hf hc]
    exact (onAck_keeps _).1
  · by_cases hf : Routed f
    · exact .inl hf
    · exact .inr (by rw [route_of_not_routed f _ hf]; rfl)

end Sys2Proof.Machine
end

section
/-! SUPPORT. What a row can make of the transaction (R99, R100, R115, R121) and of the event queue (R95, R102, R121), said
once for every row. -/

namespace Sys2Proof.Machine

/-! ### The transaction at the router (R88 to R95) -/

/-- What the router makes of the slot and the result register: both stand, up to the pending record's own fields, or
the pending transaction ends with a result (R115). -/
inductive TxnOutcome (s u : State) : Prop where
  | kept (hbusy : u.busy = s.busy) (hresult : u.result = s.result)
  | ended (hbusy : s.busy = true) (hidle : u.busy = false) (hdone : u.done = true)

theorem TxnOutcome.of_pend_some {s u : State} {x : Pending} (hpend : s.pend = some x) (hidle : u.busy = false)
    (hdone : u.done = true) : TxnOutcome s u :=
  .ended ((busy_iff s).mpr (by simp [hpend])) hidle hdone

theorem txnOutcome_onPoll (s : State) : TxnOutcome s (onPoll s) := by
  rcases onPoll_cases s with ⟨-, e⟩ | ⟨_, -, -, e⟩ | ⟨x, hpend, -, -, e⟩ | ⟨x, hpend, -, -, e⟩ <;> rw [e]
  · exact .kept rfl rfl
  · exact .kept rfl rfl
  · exact .kept (by simp [State.busy, sentState, hpend]) rfl
  · exact .of_pend_some hpend rfl rfl

theorem txnOutcome_onAck (s : State) : TxnOutcome s (onAck s) := by
  rcases onAck_cases s with ⟨-, e⟩ | ⟨x, _, hpend, -, -, e⟩ | ⟨x, hpend, -, -, e⟩ <;> rw [e]
  · exact .kept rfl rfl
  · exact .kept (by simp [State.busy, awaitingState, hpend]) rfl
  · exact .of_pend_some hpend rfl rfl

theorem txnOutcome_matchedState (c : Byte) (payload : Bytes) (s : State) (h : s.expects c = true) :
    TxnOutcome s (matchedState payload s) := by
  obtain ⟨x, hpend, -⟩ := (expects_iff s c).mp h
  exact .of_pend_some hpend rfl rfl

theorem txnOutcome_matchedCase (d : Decoded) (s : State) : TxnOutcome s (matchedCase d s) := by
  cases h : s.expects d.cmd with
  | true => rw [matchedCase_of_expects d s h]; exact txnOutcome_matchedState d.cmd d.payload s h
  | false => rw [matchedCase_of_not_expects d s h]; exact .kept rfl rfl

theorem txnOutcome_unmatchedCase (p : Params) (d : Decoded) (s : State) : TxnOutcome s (unmatchedCase p d s) := by
  obtain ⟨hpend, hresult⟩ := unmatchedCase_keeps p d s
  exact .kept (by rw [State.busy, hpend, State.busy]) hresult

theorem txnOutcome_whenRouted (p : Params) (f : Bytes) (g : State → State) (s : State) (h : TxnOutcome s (g s)) :
    TxnOutcome s (whenRouted p f g s) :=
  whenRouted_holds (TxnOutcome s) p f g s h (.kept rfl rfl)

theorem txnOutcome_route (p : Params) (f : Bytes) (s : State) : TxnOutcome s (route p f s) := by
  rcases route_cases p f s with ⟨-, e⟩ | ⟨-, -, e⟩ | ⟨-, -, e⟩ | ⟨-, -, hx, e⟩ | ⟨-, -, -, e⟩ <;> rw [e]
  · exact .kept rfl rfl
  · exact txnOutcome_onPoll s
  · exact txnOutcome_onAck s
  · exact txnOutcome_matchedState _ _ s hx
  · rw [onUnmatched_frame]
    exact .kept rfl rfl

/-- The buffer and the receive trace, which completion writes besides, are no part of the transaction. -/
theorem txnOutcome_completeFrame (p : Params) (f : Bytes) (s : State) : TxnOutcome s (completeFrame p f s) := by
  cases txnOutcome_route p f (s.setRxbuf []) with
  | kept hbusy hresult => exact .kept hbusy hresult
  | ended hbusy hidle hdone => exact .ended hbusy hidle hdone

theorem txnOutcome_receive (p : Params) (b : Byte) (s : State) : TxnOutcome s (receive p b s) := by
  rcases receive_cases p b s with ⟨-, -, e⟩ | ⟨-, -, e⟩ | ⟨-, -, e⟩ <;> rw [e]
  · exact .kept rfl rfl
  · exact txnOutcome_completeFrame p _ s
  · exact .kept rfl rfl

/-! ### The transaction under every row -/

/-- What a row makes of the slot and the result register. -/
inductive TxnStep (i : Instr) (s t : State) : Prop where
  /-- R88 to R96; and a refused SUBMIT, or a row that writes neither element. -/
  | outcome (h : TxnOutcome s t)
  /-- R99: SUBMIT starts a transaction. -/
  | started (hi : ∃ code ev exp plen payload, i = .submit code ev exp plen payload) (hbusy : t.busy = true)
      (hresult : t.result = none)
  /-- R100: TAKE_RESULT clears the result. -/
  | taken (hi : i = .takeResult) (hbusy : t.busy = s.busy) (hresult : t.result = none)
  /-- R121: RESET clears both. -/
  | cleared (hi : i = .reset) (hresult : t.result = none)

theorem exec_txnStep (i : Instr) (s t : State) (h : exec i s = .next t) : TxnStep i s t := by
  cases i with
  | rxByte b => cases h; exact .outcome (txnOutcome_receive _ b s)
  | frameStd | frameShort => cases h; exact .outcome (txnOutcome_completeFrame _ _ s)
  | poll f => cases h; exact .outcome (txnOutcome_whenRouted _ f _ s (txnOutcome_onPoll s))
  | ack f => cases h; exact .outcome (txnOutcome_whenRouted _ f _ s (txnOutcome_onAck s))
  | dataMatched f => cases h; exact .outcome (txnOutcome_whenRouted _ f _ s (txnOutcome_matchedCase _ s))
  | dataUnmatched f => cases h; exact .outcome (txnOutcome_whenRouted _ f _ s (txnOutcome_unmatchedCase _ _ s))
  | txAck | txCmd | status | drain | reservedOp => cases h; exact .outcome (.kept rfl rfl)
  | submit code ev exp plen payload =>
    cases h
    rcases submitOp_cases Config.params code (expectedOf ev exp) plen payload s with ⟨-, e⟩ | ⟨-, -, e⟩ | ⟨-, -, e⟩ <;>
      rw [e]
    · exact .outcome (.kept rfl rfl)
    · exact .outcome (.kept rfl rfl)
    · exact .started ⟨code, ev, exp, plen, payload, rfl⟩ rfl rfl
  | takeResult => cases h; exact .taken rfl rfl rfl
  | reset => cases h; exact .cleared rfl rfl

/-! ### Which rows run the unmatched DATA case on which frame (R95) -/

/-- Frame `f` takes the unmatched DATA case in state `s` (R86, R87). -/
def TakesUnmatched (f : Bytes) (s : State) : Prop :=
  Routed f ∧ isDataCmd (cmdByte f) = true ∧ s.expects (cmdByte f) = false

/-- The rows that can run the unmatched DATA case. -/
def runsUnmatched : Instr → Bool
  | .rxByte _ | .frameStd _ _ _ _ _ _ _ | .frameShort _ _ _ _ | .dataUnmatched _ => true
  | _ => false

theorem UnmatchedAt.runsUnmatched {i : Instr} {s : State} {f : Bytes} (h : UnmatchedAt i s f) :
    runsUnmatched i = true := by
  obtain ⟨-, -, rfl | ⟨-, ⟨_, rfl, -⟩ | ⟨_, _, _, _, _, _, _, rfl, -⟩ | ⟨_, _, _, _, rfl, -⟩⟩⟩ := h <;> rfl

/-- Row `i` completes frame `f` from state `s`: the received byte that ends it with no marker pair, or the layout row of
its form (R51, R79 to R81). -/
inductive CompletesFrame (s : State) : Instr → Bytes → Prop where
  | received (b : Byte) (hframe : isFrame (s.rxbuf ++ [b]) = true)
      (hpair : ¬ (s.rxbuf.getLast? = some marker0 ∧ b = marker1)) : CompletesFrame s (.rxByte b) (s.rxbuf ++ [b])
  | standard (m0 m1 cmd len seqno : Byte) (payload : Bytes) (chk : Byte) :
      CompletesFrame s (.frameStd m0 m1 cmd len seqno payload chk) (stdFrame m0 m1 cmd len seqno payload chk)
  | short (m0 m1 cmd chk : Byte) : CompletesFrame s (.frameShort m0 m1 cmd chk) (shortFrame m0 m1 cmd chk)

theorem CompletesFrame.unique {s : State} {i : Instr} {f g : Bytes} (hf : CompletesFrame s i f)
    (hg : CompletesFrame s i g) : f = g := by
  cases hf <;> cases hg <;> rfl

/-- The frame is the operand of DATA_UNMATCHED, or the row completes it and it takes the case. -/
theorem unmatchedAt_iff (i : Instr) (s : State) (f : Bytes) :
    UnmatchedAt i s f ↔
      i = .dataUnmatched f ∧ Routed f ∧ s.expects (cmdByte f) = false ∨
      CompletesFrame s i f ∧ TakesUnmatched f s := by
  rw [TakesUnmatched, expects_eq_false_iff]
  constructor
  · rintro ⟨hr, hx, hi | ⟨hd, ⟨b, rfl, rfl, hframe, hpair⟩ | ⟨_, _, _, _, _, _, _, rfl, rfl⟩ | ⟨_, _, _, _, rfl, rfl⟩⟩⟩
    · exact .inl ⟨hi, hr, hx⟩
    · exact .inr ⟨.received b hframe hpair, hr, hd, hx⟩
    · exact .inr ⟨.standard .., hr, hd, hx⟩
    · exact .inr ⟨.short .., hr, hd, hx⟩
  · rintro (⟨hi, hr, hx⟩ | ⟨hc, hr, hd, hx⟩)
    · exact ⟨hr, hx, .inl hi⟩
    refine ⟨hr, hx, .inr ⟨hd, ?_⟩⟩
    cases hc with
    | received b hframe hpair => exact .inl ⟨b, rfl, rfl, hframe, hpair⟩
    | standard => exact .inr (.inl ⟨_, _, _, _, _, _, _, rfl, rfl⟩)
    | short => exact .inr (.inr ⟨_, _, _, _, rfl, rfl⟩)

/-- A row that completes a frame runs the case on that frame or on none. -/
theorem CompletesFrame.unmatchedAt_iff {s : State} {i : Instr} {g : Bytes} (hg : CompletesFrame s i g) (f : Bytes) :
    UnmatchedAt i s f ↔ f = g ∧ TakesUnmatched f s := by
  rw [Machine.unmatchedAt_iff]
  constructor
  · rintro (⟨rfl, -⟩ | ⟨hf, hun⟩)
    · exact nomatch hg
    · exact ⟨hf.unique hg, hun⟩
  · rintro ⟨rfl, hun⟩
    exact .inr ⟨hg, hun⟩

/-! ### The event queue under every row -/

/-- The queue after the unmatched DATA case on frame `f` (R95). -/
def State.evqAfter (s : State) (f : Bytes) : List Event :=
  if hasRoom Config.params s.evq.length
    then s.evq ++ [{ code := cmdByte f, payload := (dec f).payload }] else s.evq

theorem onUnmatched_evq (f : Bytes) (s : State) :
    (onUnmatched Config.params (cmdByte f) (dec f).payload s).evq = s.evqAfter f := by
  rw [onUnmatched_eq]; rfl

/-- An empty queue has room (R11), so the frame's own event is then the one event queued. -/
theorem State.evqAfter_of_evq_nil (s : State) (f : Bytes) (h : s.evq = []) :
    s.evqAfter f = [{ code := cmdByte f, payload := (dec f).payload }] := by
  rw [State.evqAfter, if_pos (hasRoom_of_evq_nil _ s h), h, List.nil_append]

/-- After the unmatched DATA case an event waits, also when the queue had no room for this one (R95, R112). -/
theorem State.evqAfter_ne_nil (s : State) (f : Bytes) : s.evqAfter f ≠ [] := by
  by_cases h : s.evq = []
  · rw [s.evqAfter_of_evq_nil f h]
    exact List.cons_ne_nil _ _
  · rw [State.evqAfter]
    split_ifs
    · exact List.append_ne_nil_of_left_ne_nil h _
    · exact h

theorem route_evq_of_takesUnmatched (f : Bytes) (s : State) (h : TakesUnmatched f s) :
    (route Config.params f s).evq = s.evqAfter f := by
  obtain ⟨hr, hd, hx⟩ := h
  obtain ⟨hp, ha⟩ := (isDataCmd_iff _).mp hd
  rw [route_data f s hr hp ha, onData, hx, if_neg Bool.false_ne_true, onUnmatched_evq]

theorem route_evq_of_not_takesUnmatched (f : Bytes) (s : State) (h : ¬ TakesUnmatched f s) :
    (route Config.params f s).evq = s.evq := by
  rcases route_cases Config.params f s with ⟨-, e⟩ | ⟨-, -, e⟩ | ⟨-, -, e⟩ | ⟨-, -, -, e⟩ | ⟨hr, hd, hx, e⟩ <;> rw [e]
  · exact (onPoll_keeps s).2.1
  · exact (onAck_keeps s).2.1
  · rfl
  · exact absurd ⟨(routed_iff_routes f).mpr hr, hd, hx⟩ h

/-- What a row makes of the event queue, and whether it runs the unmatched DATA case. -/
inductive EventStep (i : Instr) (s t : State) : Prop where
  /-- The row runs the case on no frame and leaves the queue. -/
  | kept (hno : ∀ f, ¬ UnmatchedAt i s f) (hevq : t.evq = s.evq)
  /-- R95: the row runs the case on frame `f`. -/
  | ran (f : Bytes) (hat : UnmatchedAt i s f) (hevq : t.evq = s.evqAfter f)
  /-- R102, R121: DRAIN and RESET empty the queue. -/
  | emptied (hi : i = .drain ∨ i = .reset) (hevq : t.evq = [])

theorem CompletesFrame.eventStep {s : State} {i : Instr} {g : Bytes} (hg : CompletesFrame s i g) :
    EventStep i s (completeFrame Config.params g s) := by
  by_cases hun : TakesUnmatched g s
  · exact .ran g ((hg.unmatchedAt_iff g).mpr ⟨rfl, hun⟩) (route_evq_of_takesUnmatched g (s.setRxbuf []) hun)
  · refine .kept (fun f hf => ?_) (route_evq_of_not_takesUnmatched g (s.setRxbuf []) hun)
    obtain ⟨rfl, hf⟩ := (hg.unmatchedAt_iff f).mp hf
    exact hun hf

/-- A received byte that completes no frame runs the case on none. -/
theorem not_unmatchedAt_rxByte (b : Byte) (s : State) (f : Bytes) (h : ∀ g, ¬ CompletesFrame s (.rxByte b) g) :
    ¬ UnmatchedAt (.rxByte b) s f := by
  rw [unmatchedAt_iff]
  rintro (⟨hi, -⟩ | ⟨hf, -⟩)
  · cases hi
  · exact h f hf

theorem eventStep_receive (b : Byte) (s : State) : EventStep (.rxByte b) s (receive Config.params b s) := by
  by_cases hpair : s.rxbuf.getLast? = some marker0 ∧ b = marker1
  · obtain ⟨hlast, rfl⟩ := hpair
    rw [receive_of_marker _ s hlast]
    refine .kept (fun f => not_unmatchedAt_rxByte _ s f fun g hg => ?_) rfl
    cases hg with
    | received _ _ hno => exact hno ⟨hlast, rfl⟩
  cases hframe : isFrame (s.rxbuf ++ [b]) with
  | true =>
    rw [receive_of_frame _ b s hpair hframe]
    exact (CompletesFrame.received b hframe hpair).eventStep
  | false =>
    rw [receive_of_unfinished _ b s hpair hframe]
    refine .kept (fun f => not_unmatchedAt_rxByte b s f fun g hg => ?_) rfl
    cases hg with
    | received _ hyes _ => exact nomatch hyes.symm.trans hframe

theorem eventStep_dataUnmatched (g : Bytes) (s t : State) (he : exec (.dataUnmatched g) s = .next t) :
    EventStep (.dataUnmatched g) s t := by
  by_cases h : Routed g ∧ s.expects (cmdByte g) = false
  · obtain ⟨hr, hx⟩ := h
    rw [exec_dataUnmatched_of_routed g s hr hx] at he
    cases he
    exact .ran g ((unmatchedAt_iff _ s g).mpr (.inl ⟨rfl, hr, hx⟩)) (onUnmatched_evq g s)
  · refine .kept (fun f hf => ?_) ?_
    · rcases (unmatchedAt_iff _ s f).mp hf with ⟨hi, hf⟩ | ⟨hc, -⟩
      · cases hi; exact h hf
      · cases hc
    · cases he
      rcases whenRouted_cases Config.params g (unmatchedCase Config.params (dec g)) s with ⟨hr, e⟩ | ⟨-, e⟩ <;> rw [e]
      have hx : s.expects (dec g).cmd = true := by
        rw [dec_cmd, ← Bool.not_eq_false]
        exact fun hx => h ⟨(routed_iff_routes g).mpr hr, hx⟩
      rw [unmatchedCase_of_expects _ _ s hx]

/-- A row that never runs the case and writes no event. -/
theorem EventStep.of_not_runsUnmatched {i : Instr} {s t : State} (hi : runsUnmatched i = false) (hevq : t.evq = s.evq) :
    EventStep i s t :=
  .kept (fun _ hf => nomatch hi.symm.trans hf.runsUnmatched) hevq

theorem exec_eventStep (i : Instr) (s t : State) (h : exec i s = .next t) : EventStep i s t := by
  cases i with
  | rxByte b => cases h; exact eventStep_receive b s
  | frameStd m0 m1 cmd len seqno payload chk =>
    cases h; exact (CompletesFrame.standard m0 m1 cmd len seqno payload chk).eventStep
  | frameShort m0 m1 cmd chk => cases h; exact (CompletesFrame.short m0 m1 cmd chk).eventStep
  | poll f =>
    cases h
    exact .of_not_runsUnmatched rfl (whenRouted_holds (·.evq = s.evq) _ f _ s (onPoll_keeps s).2.1 rfl)
  | ack f =>
    cases h
    exact .of_not_runsUnmatched rfl (whenRouted_holds (·.evq = s.evq) _ f _ s (onAck_keeps s).2.1 rfl)
  | dataMatched f =>
    cases h
    exact .of_not_runsUnmatched rfl (whenRouted_holds (·.evq = s.evq) _ f _ s (matchedCase_keeps _ s).2.1 rfl)
  | dataUnmatched f => exact eventStep_dataUnmatched f s t h
  | submit code ev exp plen payload =>
    cases h; exact .of_not_runsUnmatched rfl (submitOp_events _ code _ plen payload s).1
  | txAck | txCmd | takeResult | status | reservedOp => cases h; exact .of_not_runsUnmatched rfl rfl
  | drain => cases h; exact .emptied (.inl rfl) rfl
  | reset => cases h; exact .emptied (.inr rfl) rfl

end Sys2Proof.Machine
end

section
/-! PROOFS. The level outputs (R29, R111, R112, R115): what raises and lowers `done` and `ev_pending`. -/

namespace Sys2Proof.Machine

/-! ### done (R111, R115) -/

theorem done_eq_of_result_eq {s t : State} (h : t.result = s.result) : t.done = s.done := by
  rw [State.done, h, State.done]

theorem done_eq_false_of_result_none {t : State} (h : t.result = none) : t.done = false := by
  rw [State.done, h]; rfl

/-- A result appears only with the end of the pending transaction. -/
theorem TxnStep.done_rises {i : Instr} {s t : State} (h : TxnStep i s t) (hs : s.done = false) (ht : t.done = true) :
    s.busy = true ∧ t.busy = false := by
  cases h with
  | outcome h =>
    cases h with
    | kept _ hresult => exact nomatch ht.symm.trans ((done_eq_of_result_eq hresult).trans hs)
    | ended hbusy hidle _ => exact ⟨hbusy, hidle⟩
  | started _ _ hresult | taken _ _ hresult | cleared _ hresult =>
    exact nomatch ht.symm.trans (done_eq_false_of_result_none hresult)

/-- Every end of a transaction but a RESET's leaves a result. -/
theorem TxnStep.done_of_end {i : Instr} {s t : State} (h : TxnStep i s t) (hi : i ≠ .reset) (hs : s.busy = true)
    (ht : t.busy = false) : t.done = true := by
  cases h with
  | outcome h =>
    cases h with
    | kept hbusy _ => exact nomatch hs.symm.trans (hbusy.symm.trans ht)
    | ended _ _ hdone => exact hdone
  | started _ hbusy _ => exact nomatch hbusy.symm.trans ht
  | taken _ hbusy _ => exact nomatch hs.symm.trans (hbusy.symm.trans ht)
  | cleared hreset _ => exact absurd hreset hi

/-- Only the three rows that clear the result register take `done` back. -/
theorem TxnStep.done_falls {i : Instr} {s t : State} (h : TxnStep i s t) (hs : s.done = true) (ht : t.done = false) :
    i = .takeResult ∨ i = .reset ∨ ∃ code ev exp plen payload, i = .submit code ev exp plen payload := by
  cases h with
  | outcome h =>
    cases h with
    | kept _ hresult => exact nomatch hs.symm.trans ((done_eq_of_result_eq hresult).symm.trans ht)
    | ended _ _ hdone => exact nomatch hdone.symm.trans ht
  | started hi _ _ => exact .inr (.inr hi)
  | taken hi _ _ => exact .inl hi
  | cleared hi _ => exact .inr (.inl hi)

/-! ### ev_pending (R112) -/

theorem evPending_eq_false_iff (s : State) : s.evPending = false ↔ s.evq = [] := by
  rw [← Bool.not_eq_true, evPending_iff, not_not]

/-- Events appear only by the unmatched DATA case, which finds room in an empty queue. -/
theorem EventStep.evPending_rises {i : Instr} {s t : State} (h : EventStep i s t) (hs : s.evPending = false)
    (ht : t.evPending = true) :
    ∃ f, UnmatchedAt i s f ∧ t.evq = [{ code := cmdByte f, payload := (dec f).payload }] := by
  rw [evPending_eq_false_iff] at hs
  rw [evPending_iff] at ht
  cases h with
  | kept _ hevq => exact absurd (hevq.trans hs) ht
  | ran f hat hevq => exact ⟨f, hat, hevq.trans (s.evqAfter_of_evq_nil f hs)⟩
  | emptied _ hevq => exact absurd hevq ht

theorem EventStep.evPending_of_unmatchedAt {i : Instr} {s t : State} (h : EventStep i s t) {f : Bytes}
    (hat : UnmatchedAt i s f) : t.evPending = true := by
  rw [evPending_iff]
  cases h with
  | kept hno _ => exact absurd hat (hno f)
  | ran g _ hevq => rw [hevq]; exact s.evqAfter_ne_nil g
  | emptied hi _ => rcases hi with rfl | rfl <;> exact nomatch hat.runsUnmatched

/-- Only DRAIN and RESET take waiting events away. -/
theorem EventStep.evPending_falls {i : Instr} {s t : State} (h : EventStep i s t) (hs : s.evPending = true)
    (ht : t.evPending = false) : i = .drain ∨ i = .reset := by
  rw [evPending_iff] at hs
  rw [evPending_eq_false_iff] at ht
  cases h with
  | kept _ hevq => exact absurd (hevq.symm.trans ht) hs
  | ran f _ hevq => exact absurd (hevq.symm.trans ht) (s.evqAfter_ne_nil f)
  | emptied hi _ => exact hi

/-- Settles O52: `done` follows the row's `TxnStep`, `ev_pending` its `EventStep`. -/
theorem levelOutputs : Obligations.LevelOutputs := by
  intro i s t he
  have htxn : TxnStep i s t := exec_txnStep i s t he
  have hev : EventStep i s t := exec_eventStep i s t he
  exact ⟨htxn.done_rises, htxn.done_of_end, htxn.done_falls, hev.evPending_rises,
    fun _ => hev.evPending_of_unmatchedAt, hev.evPending_falls⟩

end Sys2Proof.Machine
end

section
/-! PROOFS. The host operations (43_host_interface.md): what each returns and writes, and the history of the events, which
DRAIN returns once and in order (R102). -/

namespace Sys2Proof.Machine

/-! ### The event history under every row (R95, R102, R121) -/

/-- DRAIN moves the waiting events, in their order, to those drained (R102). -/
theorem drain_keeps_eventHistory (s : State) :
    (s.clearEvents.giveBack (.events s.evq s.evqOvf)).eventHistory = s.eventHistory := by
  simp [State.eventHistory, HostReturn.drained]

/-- No other host operation returns events (R99 to R101, R103). -/
theorem hostOp_drained {i : Instr} {s t : State} (hi : i.isHostOp = true) (hdrain : i ≠ .drain)
    (h : exec i s = .next t) : t.hostlog.flatMap HostReturn.drained = s.hostlog.flatMap HostReturn.drained := by
  cases i with
  | submit code ev exp plen payload =>
    cases h
    rcases submitOp_cases Config.params code (expectedOf ev exp) plen payload s with ⟨-, e⟩ | ⟨-, -, e⟩ | ⟨-, -, e⟩ <;>
      rw [e] <;> simp [HostReturn.drained]
  | takeResult => cases h; simp [takeOp_eq, HostReturn.drained]
  | status | reservedOp => cases h; simp [HostReturn.drained]
  | drain => exact absurd rfl hdrain
  | rxByte | frameStd | frameShort | poll | ack | dataMatched | dataUnmatched | txAck | txCmd | reset => cases hi

theorem exec_drained {i : Instr} {s t : State} (hdrain : i ≠ .drain) (h : exec i s = .next t) :
    t.hostlog.flatMap HostReturn.drained = s.hostlog.flatMap HostReturn.drained := by
  cases hi : i.isHostOp with
  | true => exact hostOp_drained hi hdrain h
  | false => rw [(exec_wireStep i s t hi h).host_frame.1]

/-- The history with the queue as the unmatched DATA case on frame `f` leaves it (R95). -/
theorem drained_append_evqAfter (s : State) (f : Bytes) :
    s.hostlog.flatMap HostReturn.drained ++ s.evqAfter f =
      if hasRoom Config.params s.evq.length
        then s.eventHistory ++ [{ code := cmdByte f, payload := (dec f).payload }] else s.eventHistory := by
  rw [State.evqAfter]
  split_ifs
  · exact (List.append_assoc ..).symm
  · rfl

/-- What a row makes of the event history. -/
inductive HistoryStep (i : Instr) (s t : State) : Prop where
  /-- The row runs the unmatched DATA case on no frame and keeps the history; DRAIN is such a row. -/
  | kept (hno : ∀ f, ¬ UnmatchedAt i s f) (hhist : t.eventHistory = s.eventHistory)
  /-- R95: the row runs the case on frame `f`. -/
  | ran (f : Bytes) (hat : UnmatchedAt i s f)
      (hhist : t.eventHistory = s.hostlog.flatMap HostReturn.drained ++ s.evqAfter f)
  /-- R121: RESET loses the waiting events. -/
  | lost (hi : i = .reset) (hhist : t.eventHistory = s.hostlog.flatMap HostReturn.drained)

theorem exec_historyStep (i : Instr) (s t : State) (h : exec i s = .next t) : HistoryStep i s t := by
  by_cases hdrain : i = .drain
  · subst hdrain
    cases h
    exact .kept (fun _ hf => nomatch hf.runsUnmatched) (drain_keeps_eventHistory s)
  have hlog := exec_drained hdrain h
  cases exec_eventStep i s t h with
  | kept hno hevq => exact .kept hno (by rw [State.eventHistory, hlog, hevq, State.eventHistory])
  | ran f hat hevq => exact .ran f hat (by rw [State.eventHistory, hlog, hevq])
  | emptied hi hevq =>
    exact .lost (hi.resolve_left hdrain) (by rw [State.eventHistory, hlog, hevq, List.append_nil])

/-- A row runs the unmatched DATA case on at most one frame. -/
theorem UnmatchedAt.unique {i : Instr} {s : State} {f g : Bytes} (hf : UnmatchedAt i s f) (hg : UnmatchedAt i s g) :
    f = g := by
  rcases (unmatchedAt_iff i s f).mp hf with ⟨rfl, -⟩ | ⟨hcf, -⟩
  · rcases (unmatchedAt_iff _ s g).mp hg with ⟨hi, -⟩ | ⟨hcg, -⟩
    · cases hi; rfl
    · cases hcg
  · exact ((hcf.unmatchedAt_iff g).mp hg).1.symm

theorem HistoryStep.kept_of_no_unmatched {i : Instr} {s t : State} (h : HistoryStep i s t) (hi : i ≠ .reset)
    (hno : ∀ f, ¬ UnmatchedAt i s f) : t.eventHistory = s.eventHistory := by
  cases h with
  | kept _ hhist => exact hhist
  | ran f hat _ => exact absurd hat (hno f)
  | lost hreset _ => exact absurd hreset hi

theorem HistoryStep.of_unmatchedAt {i : Instr} {s t : State} (h : HistoryStep i s t) {f : Bytes}
    (hat : UnmatchedAt i s f) : t.eventHistory = s.hostlog.flatMap HostReturn.drained ++ s.evqAfter f := by
  cases h with
  | kept hno _ => exact absurd hat (hno f)
  | ran g hg hhist => rw [hat.unique hg, hhist]
  | lost hi _ => subst hi; exact nomatch hat.runsUnmatched

/-- RESET loses the waiting events and keeps the trace of those drained (R121; entry 15). -/
theorem resetOp_eventHistory (p : Params) (s : State) :
    (resetOp p s).eventHistory = s.hostlog.flatMap HostReturn.drained := by
  simp [State.eventHistory]

/-- Settles O53: the history follows the row's `HistoryStep`; the four rows that the first clause leaves out are those
that `UnmatchedAt` names. -/
theorem eventsReturnedOnceInOrder : Obligations.EventsReturnedOnceInOrder := by
  intro i s t he
  have hstep : HistoryStep i s t := exec_historyStep i s t he
  refine ⟨fun hrx hstd hshort hdata hreset => hstep.kept_of_no_unmatched hreset fun f hf => ?_,
    hstep.kept_of_no_unmatched, fun f hf => (hstep.of_unmatchedAt hf).trans (drained_append_evqAfter s f), fun hi => ?_⟩
  · obtain ⟨-, -, hi | ⟨-, ⟨b, hi, -⟩ | ⟨_, _, _, _, _, _, _, hi, -⟩ | ⟨_, _, _, _, hi, -⟩⟩⟩ := hf
    · exact hdata f hi
    · exact hrx b hi
    · exact hstd _ _ _ _ _ _ _ hi
    · exact hshort _ _ _ _ hi
  · subst hi
    cases he
    exact resetOp_eventHistory Config.params s

/-! ### SUBMIT (R99) -/

theorem submitOp_of_long (p : Params) (code : Byte) (expected : Option Byte) (plen : Byte) (payload : Bytes) (s : State)
    (h : maxTxPayload < plen.toNat) : submitOp p code expected plen payload s = s.refuse .payloadTooLong := if_pos h

/-- The state after a SUBMIT that starts a transaction (R99). -/
def startedState (code : Byte) (expected : Option Byte) (payload : Bytes) (s : State) : State :=
  { s with
    pend := some (newPending code expected payload)
    result := none
    hostlog := s.hostlog ++ [.status .ok] }

/-- Past the length test the pending slot and the policy decide (R99, D16). -/
theorem submitOp_of_fits (p : Params) (code : Byte) (expected : Option Byte) (plen : Byte) (payload : Bytes) (s : State)
    (h : plen.toNat ≤ maxTxPayload) : submitOp p code expected plen payload s =
      if s.turnsAway p then s.refuse .busy else startedState code expected payload s := if_neg (Nat.not_lt.mpr h)

theorem turnsAway_of_no_pending (p : Params) (s : State) (h : s.pend = none) : s.turnsAway p = false := by
  rw [← Bool.not_eq_true, turnsAway_iff]
  exact fun hbusy => hbusy.1 h

theorem turnsAway_of_pending (p : Params) (s : State) (x : Pending) (h : s.pend = some x) :
    s.turnsAway p = true ↔ p.submitPolicy = .rejectBusy := by
  simp [turnsAway_iff, h]

/-- Settles O40: the length decides first (`submitOp_of_long`), then the slot and the policy (`submitOp_of_fits`). -/
theorem submitOperation : Obligations.SubmitOperation := by
  refine ⟨fun s code exp plen ev payload _ hlong => ?_, fun s code exp plen ev payload _ hfits hpend => ?_,
    fun s code exp plen ev payload x _ hfits hpend => ?_⟩
  · rw [exec_submit, submitOp_of_long _ _ _ _ _ s hlong]
    rfl
  · rw [exec_submit, submitOp_of_fits _ _ _ _ _ s hfits, turnsAway_of_no_pending _ s hpend]
    rfl
  · rw [exec_submit, submitOp_of_fits _ _ _ _ _ s hfits]
    exact congrArg _ (if_congr (turnsAway_of_pending Config.params s x hpend) rfl rfl)

/-! ### TAKE_RESULT, STATUS, DRAIN and the reserved selectors (R100 to R103) -/

theorem execAll_pair {i j : Instr} {s t u : State} (hi : exec i s = .next t) (hj : exec j t = .next u) :
    execAll [i, j] s = .next u := by
  rw [execAll_cons_of_next [j] hi, execAll_cons_of_next [] hj]
  rfl

/-- Two values given back one after the other. -/
theorem State.giveBack_giveBack (s : State) (v w : HostReturn) :
    (s.giveBack v).giveBack w = { s with hostlog := s.hostlog ++ [v, w] } := by
  simp [State.giveBack]

/-- Settles O41: the second TAKE_RESULT finds the register that the first one cleared. -/
theorem takeResultOperation : Obligations.TakeResultOperation := by
  refine ⟨exec_takeResult, fun s => ?_⟩
  rw [execAll_pair (exec_takeResult s) (exec_takeResult _)]
  exact congrArg _ (s.clearResult.giveBack_giveBack (.result s.result) (.result none))

/-- What STATUS returns is in no snapshot, so the next one shows the same (R101). -/
theorem snapshotOf_giveBack (s : State) (v : HostReturn) : snapshotOf (s.giveBack v) = snapshotOf s := rfl

theorem snapshotOf_of_pending (s : State) (x : Pending) (h : s.pend = some x) :
    (snapshotOf s).st = some x.st ∧ (snapshotOf s).retries = x.retries ∧ (snapshotOf s).code = some x.code ∧
    (snapshotOf s).expected = x.expected := by
  simp [snapshotOf, h]

theorem snapshotOf_of_no_pending (s : State) (h : s.pend = none) :
    (snapshotOf s).st = none ∧ (snapshotOf s).retries = 0 ∧ (snapshotOf s).code = none ∧
    (snapshotOf s).expected = none := by
  simp [snapshotOf, h]

/-- Settles O42: `snapshotOf` is the value returned, both times. -/
theorem statusOperation : Obligations.StatusOperation := by
  intro s
  refine ⟨snapshotOf s, exec_status s, ?_, busy_iff s, snapshotOf_of_pending s, snapshotOf_of_no_pending s, done_iff s,
    rfl, rfl, rfl, rfl⟩
  rw [execAll_pair (exec_status s) (exec_status _), snapshotOf_giveBack, State.giveBack_giveBack]

/-- Settles O43: the second DRAIN finds the queue and the flag that the first one cleared. -/
theorem drainOperation : Obligations.DrainOperation := by
  refine ⟨exec_drain, fun s => ?_⟩
  rw [execAll_pair (exec_drain s) (exec_drain _)]
  exact congrArg _ (s.clearEvents.giveBack_giveBack (.events s.evq s.evqOvf) (.events [] false))

/-- Settles O44: every reserved selector is refused alike. -/
theorem reservedOperation : Obligations.ReservedOperation := fun s low operands => exec_reservedOp low operands s

end Sys2Proof.Machine
end

section
/-! PROOFS. A held result (R116): no completion writes over it, since none stands while a transaction is pending. -/

namespace Sys2Proof.Machine

theorem Inv.idle_of_result {p : Params} {s : State} {r : TxnResult} (h : Inv p s) (hr : s.result = some r) :
    s.busy = false := by
  cases hpend : s.pend with
  | none => rw [State.busy, hpend]; rfl
  | some x => exact nomatch hr.symm.trans (h.result_of_pend hpend)

/-- With nothing pending there is no transaction to end, so only the rows that clear the result register write it. -/
theorem TxnStep.result_of_idle {i : Instr} {s t : State} (h : TxnStep i s t) (hidle : s.busy = false) :
    t.result = s.result ∨ i = .takeResult ∨ i = .reset ∨
      ∃ code ev exp plen payload, i = .submit code ev exp plen payload := by
  cases h with
  | outcome h =>
    cases h with
    | kept _ hresult => exact .inl hresult
    | ended hbusy _ _ => exact nomatch hbusy.symm.trans hidle
  | started hi _ _ => exact .inr (.inr (.inr hi))
  | taken hi _ _ => exact .inr (.inl hi)
  | cleared hi _ => exact .inr (.inr (.inl hi))

/-- Settles O51: a held result means that nothing is pending (`Inv.idle_of_result`), and then every row's `TxnStep`
keeps the register or is one of the three that clear it. -/
theorem heldResultSurvivesReception : Obligations.HeldResultSurvivesReception := by
  intro p i s t r hinv hr he
  have hidle : s.busy = false := hinv.idle_of_result hr
  rw [← hr]
  exact (exec_txnStep i s t he).result_of_idle hidle

end Sys2Proof.Machine
end

section
/-! PROOFS. The statements of 70_reset_and_hazards.md: RESET (R121), the half-duplex rule (R130), and the sequence number
of a retransmission (R134). -/

namespace Sys2Proof.Machine

/-! ### RESET (R121) -/

/-- Settles O45: the reset state, field by field. -/
theorem resetOperation : Obligations.ResetOperation :=
  ⟨seqReset_ne_zero Config.params, fun s =>
    ⟨resetOp Config.params s, exec_reset s, resetOp_rxbuf s _, resetOp_pend s _, resetOp_result s _, resetOp_seq s _,
      resetOp_evq s _, resetOp_evqOvf s _, resetOp_tx s _, resetOp_rxlog s _⟩⟩

/-! ### What an event transmits (R130) -/

theorem isEvent_cases (i : Instr) (h : i.isEvent = true) : i.isHostOp = true ∨ i = .reset ∨ ∃ b, i = .rxByte b := by
  cases i with
  | rxByte b => exact .inr (.inr ⟨b, rfl⟩)
  | reset => exact .inr (.inl rfl)
  | submit | takeResult | status | drain | reservedOp => exact .inl rfl
  | frameStd | frameShort | poll | ack | dataMatched | dataUnmatched | txAck | txCmd => cases h

/-- The router answers routed POLL and DATA frames only, each with one frame (R86, R98 (a) to (d)). -/
theorem route_tx (f : Bytes) (s : State) :
    (route Config.params f s).tx = s.tx ∨
    Routed f ∧ cmdByte f ≠ cmdAck ∧
      ((route Config.params f s).tx = s.tx ++ ackFrame ∨
        cmdByte f = cmdPoll ∧
          ∃ x, s.pend = some x ∧ (route Config.params f s).tx = s.tx ++ enc x.code s.seq x.payload) := by
  by_cases hf : Routed f
  · by_cases hp : cmdByte f = cmdPoll
    · rw [route_poll f s hf hp]
      exact .inr ⟨hf, by rw [hp]; decide, (onPoll_tx s).imp_right fun hsent => ⟨hp, hsent⟩⟩
    · by_cases ha : cmdByte f = cmdAck
      · rw [route_ack f s hf ha]
        exact .inl (onAck_keeps s).1
      · rw [route_data f s hf hp ha]
        exact .inr ⟨hf, ha, .inl (onData_tx _ _ _ s)⟩
  · rw [route_of_not_routed f s hf]
    exact .inl rfl

/-- Settles O39: host operations and RESET keep `tx`, and a received byte transmits by the frame it completes, if it
completes one (`route_tx`). -/
theorem halfDuplex : Obligations.HalfDuplex := by
  constructor
  · intro i s t hi he
    rcases isEvent_cases i hi with hhost | rfl | ⟨b, rfl⟩
    · obtain ⟨-, htx, -⟩ := hostOp_frame i s t hhost he
      exact .inl htx
    · cases he
      exact .inl (resetOp_tx s _)
    · cases he
      by_cases hpair : s.rxbuf.getLast? = some marker0 ∧ b = marker1
      · obtain ⟨hlast, rfl⟩ := hpair
        rw [receive_of_marker Config.params s hlast]
        exact .inl rfl
      · cases hf : isFrame (s.rxbuf ++ [b]) with
        | false => rw [receive_of_unfinished Config.params b s hpair hf]; exact .inl rfl
        | true =>
          rw [receive_of_frame Config.params b s hpair hf, completeFrame_tx]
          exact (route_tx (s.rxbuf ++ [b]) (s.setRxbuf [])).imp_right fun hsent => ⟨b, rfl, hpair, hf, hsent⟩
  · intro s t hidle he
    rw [step_of_no_input s hidle] at he
    cases he
    rfl

/-! ### A retransmission after an unmatched DATA frame (R134) -/

theorem exec_poll_of_retries_left (f : Bytes) (s : State) (x : Pending) (hf : Routed f) (hpend : s.pend = some x)
    (hdue : x.st ≠ .ackReceivedAwaitingData) (hr : x.retries < maxRetries) :
    exec (.poll f) s = .next (sentState x s) := by
  rw [exec_poll_of_routed f s hf, onPoll_of_due s x hpend hdue, sendOrFail_send x s hr]

/-- What the rest of the transaction sees of an unmatched DATA frame: an idle ACK and the next sequence number (R95). -/
theorem exec_dataUnmatched_wire (f : Bytes) (s : State) (hf : Routed f) (hx : s.expects (cmdByte f) = false) :
    ∃ u, exec (.dataUnmatched f) s = .next u ∧ u.tx = s.tx ++ ackFrame ∧ u.seq = adv s.seq ∧ u.pend = s.pend := by
  refine ⟨_, exec_dataUnmatched_of_routed f s hf hx, ?_⟩
  rw [onUnmatched_frame]
  exact ⟨rfl, rfl, rfl⟩

/-- The pending record after a transmission (R90). -/
def Pending.sent (x : Pending) : Pending := { x with st := .sentAwaitingAck, retries := x.retries + 1 }

theorem sentState_pend (x : Pending) (s : State) : (sentState x s).pend = some x.sent := rfl

theorem sentState_tx (x : Pending) (s : State) : (sentState x s).tx = s.tx ++ enc x.code s.seq x.payload := rfl

theorem sentState_expects (x : Pending) (s : State) (c : Byte) (h : x.expected ≠ some c) :
    (sentState x s).expects c = false := by
  rw [expects_eq_false_iff, sentState_pend]
  rintro _ ⟨⟩
  exact h

/-- Settles O36: the DATA frame keeps the slot and advances `seq` (`exec_dataUnmatched_wire`), so the second POLL sends
the same command under the successor. -/
theorem retransmissionCarriesNewSequence : Obligations.RetransmissionCarriesNewSequence := by
  intro f g s x hf hg _ hpend hst hr hexp
  have hfirst : exec (.poll f) s = .next (sentState x s) :=
    exec_poll_of_retries_left f s x hf hpend (Pending.due_of_st (.inl hst)) (by rw [hr]; decide)
  obtain ⟨u, hdata, htx, hseq, hslot⟩ := exec_dataUnmatched_wire g _ hg (sentState_expects x s _ hexp)
  have hsecond : exec (.poll f) u = .next (sentState x.sent u) :=
    exec_poll_of_retries_left f u x.sent hf hslot (Pending.due_of_st (.inr rfl)) (by simp [Pending.sent, hr, maxRetries])
  refine ⟨sentState x.sent u, ?_, ?_, hseq, ?_⟩
  · rw [execAll_cons_of_next _ hfirst, execAll_pair hdata hsecond]
  · rw [sentState_tx, htx, hseq, sentState_tx]
    rfl
  · rw [sentState_pend, Pending.sent, Pending.sent, hr]

end Sys2Proof.Machine
end
